-- ==== Sys2Proof/Word.lean ====
section
/-!
DEFINITION. The plain types of the engine: a byte, the 24-bit command word, and the small sets of names the
spec gives (levels, directions, the twelve lines, modes, fuse selectors), with the register array "one value
for each of the twelve lines". How these are numbered on the wire is Sys2Proof/Decode.lean's matter.
-/

namespace Sys2Proof

/-- An 8-bit quantity: a bus byte, a fuse value, an operand field (R23, R65). -/
abbrev Byte := BitVec 8

/-- The command word of the host port, one 24-bit port value (R64, R80). -/
abbrev CmdWord := BitVec 24

/-- A level of a line (00_scope section 5). -/
inductive Level where
  | low
  | high
deriving DecidableEq, Repr, Inhabited

/-- The complement of a level (R5: the OFF level of an enable is the complement of its ON level). -/
def Level.flip : Level → Level
  | .low => .high
  | .high => .low

/-- A direction of a line or of the bus (00_scope section 5). -/
inductive Direction where
  | input
  | output
deriving DecidableEq, Repr, Inhabited

/-- The twelve control lines, in id order 0 to 11 (R84). -/
inductive Line where
  | vcc
  | rst
  | oe
  | wr
  | xtal1
  | rdy
  | bs1
  | bs2
  | xa0
  | xa1
  | pagel
  | start
deriving DecidableEq, Repr, Inhabited

/-- The values of the 2-bit register MODE (R21, R85): the three modes and Unselected, its reset value. -/
inductive Mode where
  | atmega
  | tiny2313
  | hvsp
  | unselected
deriving DecidableEq, Repr, Inhabited

/-- The three fuse selectors (R86). -/
inductive FuseSel where
  | low
  | high
  | extended
deriving DecidableEq, Repr, Inhabited

/-- A register array with one cell for each control line: `DIR[0..11]` and `OUT[0..11]` (R20). -/
structure PerLine (α : Type) where
  vcc   : α
  rst   : α
  oe    : α
  wr    : α
  xtal1 : α
  rdy   : α
  bs1   : α
  bs2   : α
  xa0   : α
  xa1   : α
  pagel : α
  start : α
deriving DecidableEq, Repr

end Sys2Proof
end

