-- ==== Sys2Proof/Syntax.lean ====
section
/-!
DEFINITION. The nineteen operations of the command set (R81), one constructor for each row of
spec/opcode_table.json, with the operands the row's fields carry (R82).
-/

namespace Sys2Proof

/-- An operation of the engine. A line operand names a physical line; a selector operand is the 2-bit field as it
stands, since selector 3 passes decode and is refused later (R96). -/
inductive Instr where
  | setmode (mode : Mode)
  | enter
  | exit
  | setdir (line : Line) (dir : Direction)
  | wrline (line : Line) (level : Level)
  | rdline (line : Line)
  | strobe (line : Line) (holdMs : Byte)
  | delayms (count : BitVec 16)
  | delayus (count : BitVec 16)
  | setbusdir (dir : Direction)
  | wrbus (byte : Byte)
  | rdbus
  | ppSendcmd (byte : Byte)
  | ppLoaddata (byte : Byte)
  | ppWrfuse (sel : BitVec 2) (value : Byte)
  | ppRdfuse (sel : BitVec 2)
  | spXfer (data : Byte) (instr : Byte)
  | spWrfuse (sel : BitVec 2) (value : Byte)
  | spRdfuse (sel : BitVec 2)
deriving DecidableEq, Repr

end Sys2Proof
end

