-- ==== Sys2Proof/WellFormed.lean ====
section
/-!
DEFINITION. Which instruction terms stand for a legal command word. The operand types already rule out
R96 (c) (a line id 12 to 15) and every stray bit of R96 (b); what is left is R96 (d).
-/

namespace Sys2Proof

/-- R96 (d), R85: the value 3 (Unselected) is not a mode an operation can carry. Every other operand value its
type admits is legal; selector 3 is legal as an encoding (R96, last paragraph). -/
def Instr.wellFormed : Instr → Bool
  | .setmode m => decide (m ≠ Mode.unselected)
  | .enter => true
  | .exit => true
  | .setdir _ _ => true
  | .wrline _ _ => true
  | .rdline _ => true
  | .strobe _ _ => true
  | .delayms _ => true
  | .delayus _ => true
  | .setbusdir _ => true
  | .wrbus _ => true
  | .rdbus => true
  | .ppSendcmd _ => true
  | .ppLoaddata _ => true
  | .ppWrfuse _ _ => true
  | .ppRdfuse _ => true
  | .spXfer _ _ => true
  | .spWrfuse _ _ => true
  | .spRdfuse _ => true

end Sys2Proof
end

