-- ==== Sys2Proof/Decode.lean ====
section
/-!
DEFINITION. The command word (R80): its fields, the operand encodings (R82), the decoder (R81, R96), the encoder,
the mask and match columns of the opcode map as a table of their own (R81), and the assembler's
pseudo-instructions (R99).
-/

namespace Sys2Proof

/-! ### Numbers of the named values (R82, R84, R85, R86) -/

/-- R82: Low 0, High 1. -/
def Level.bit : Level → Bool
  | .low => false
  | .high => true

/-- The level a bit stands for (R82). -/
def Level.ofBit (b : Bool) : Level := if b then .high else .low

/-- `zext_8` of a level: 0x00 for Low, 0x01 for High (R82, R112). -/
def Level.code : Level → Byte
  | .low => 0x00#8
  | .high => 0x01#8

/-- R82: Input 0, Output 1. -/
def Direction.code : Direction → Byte
  | .input => 0x00#8
  | .output => 0x01#8

/-- R84: the line ids 0 to 11. -/
def Line.id : Line → Byte
  | .vcc => 0x00#8
  | .rst => 0x01#8
  | .oe => 0x02#8
  | .wr => 0x03#8
  | .xtal1 => 0x04#8
  | .rdy => 0x05#8
  | .bs1 => 0x06#8
  | .bs2 => 0x07#8
  | .xa0 => 0x08#8
  | .xa1 => 0x09#8
  | .pagel => 0x0A#8
  | .start => 0x0B#8

/-- The twelve lines in ascending id order (R84). -/
def Line.all : List Line :=
  [.vcc, .rst, .oe, .wr, .xtal1, .rdy, .bs1, .bs2, .xa0, .xa1, .pagel, .start]

/-- R85: the register values of MODE; 3 is Unselected (R21). -/
def Mode.code : Mode → Byte
  | .atmega => 0x00#8
  | .tiny2313 => 0x01#8
  | .hvsp => 0x02#8
  | .unselected => 0x03#8

/-- R86: selectors Low 0, High 1, Extended 2. -/
def FuseSel.bits : FuseSel → BitVec 2
  | .low => 0#2
  | .high => 1#2
  | .extended => 2#2

/-! ### Operand fields read back from a byte (R82, R96) -/

/-- A level operand: `b[7:1]` must be zero (R81, R96 (b)). -/
def levelOperand? (b : Byte) : Option Level :=
  if b = 0x00#8 then some .low else if b = 0x01#8 then some .high else none

/-- A direction operand: `b[7:1]` must be zero (R81, R96 (b)). -/
def directionOperand? (b : Byte) : Option Direction :=
  if b = 0x00#8 then some .input else if b = 0x01#8 then some .output else none

/-- A line operand: ids 12 to 255 do not exist (R61, R96 (b), (c)). -/
def lineOperand? (a : Byte) : Option Line :=
  Line.all.find? (fun l => l.id == a)

/-- A mode operand: 0, 1 or 2 (R85, R96 (b), (d)). -/
def modeOperand? (b : Byte) : Option Mode :=
  if b = 0x00#8 then some .atmega
  else if b = 0x01#8 then some .tiny2313
  else if b = 0x02#8 then some .hvsp
  else none

/-- A selector field: `a[7:2]` must be zero; the value 3 passes decode (R96, last paragraph). -/
def selectorOperand? (a : Byte) : Option (BitVec 2) :=
  if a.extractLsb' 2 6 = 0#6 then some (a.extractLsb' 0 2) else none

/-- A field the operation does not use must be zero (R80). -/
def unused? (f : Byte) (i : Option Instr) : Option Instr :=
  if f = 0x00#8 then i else none

/-! ### Opcodes (R81) -/

/-- The nineteen rows of the opcode map. -/
inductive Opcode where
  | setmode | enter | exit
  | setdir | wrline | rdline | strobe | delayms | delayus
  | setbusdir | wrbus | rdbus
  | ppSendcmd | ppLoaddata | ppWrfuse | ppRdfuse
  | spXfer | spWrfuse | spRdfuse
deriving DecidableEq, Repr

/-- The column `op` of R81. -/
def Opcode.code : Opcode → Byte
  | .setmode => 0x01#8
  | .enter => 0x02#8
  | .exit => 0x03#8
  | .setdir => 0x10#8
  | .wrline => 0x11#8
  | .rdline => 0x12#8
  | .strobe => 0x13#8
  | .delayms => 0x14#8
  | .delayus => 0x15#8
  | .setbusdir => 0x18#8
  | .wrbus => 0x19#8
  | .rdbus => 0x1A#8
  | .ppSendcmd => 0x20#8
  | .ppLoaddata => 0x21#8
  | .ppWrfuse => 0x22#8
  | .ppRdfuse => 0x23#8
  | .spXfer => 0x30#8
  | .spWrfuse => 0x32#8
  | .spRdfuse => 0x33#8

/-- The rows in the table's order. -/
def Opcode.all : List Opcode :=
  [.setmode, .enter, .exit, .setdir, .wrline, .rdline, .strobe, .delayms, .delayus] ++
  [.setbusdir, .wrbus, .rdbus, .ppSendcmd, .ppLoaddata, .ppWrfuse, .ppRdfuse, .spXfer, .spWrfuse, .spRdfuse]

/-- The row an opcode byte selects; the other 237 values are reserved (R96 (a)). -/
def opcode? (op : Byte) : Option Opcode :=
  Opcode.all.find? (fun o => o.code == op)

/-- The column `mask` of R81. -/
def Opcode.mask : Opcode → CmdWord
  | .setmode => 0xFFFFFC#24
  | .enter => 0xFFFFFF#24
  | .exit => 0xFFFFFF#24
  | .setdir => 0xFFF0FE#24
  | .wrline => 0xFFF0FE#24
  | .rdline => 0xFFF0FF#24
  | .strobe => 0xFFF000#24
  | .delayms => 0xFF0000#24
  | .delayus => 0xFF0000#24
  | .setbusdir => 0xFFFFFE#24
  | .wrbus => 0xFFFF00#24
  | .rdbus => 0xFFFFFF#24
  | .ppSendcmd => 0xFFFF00#24
  | .ppLoaddata => 0xFFFF00#24
  | .ppWrfuse => 0xFFFC00#24
  | .ppRdfuse => 0xFFFCFF#24
  | .spXfer => 0xFF0000#24
  | .spWrfuse => 0xFFFC00#24
  | .spRdfuse => 0xFFFCFF#24

/-- The column `match` of R81. -/
def Opcode.pattern : Opcode → CmdWord
  | .setmode => 0x010000#24
  | .enter => 0x020000#24
  | .exit => 0x030000#24
  | .setdir => 0x100000#24
  | .wrline => 0x110000#24
  | .rdline => 0x120000#24
  | .strobe => 0x130000#24
  | .delayms => 0x140000#24
  | .delayus => 0x150000#24
  | .setbusdir => 0x180000#24
  | .wrbus => 0x190000#24
  | .rdbus => 0x1A0000#24
  | .ppSendcmd => 0x200000#24
  | .ppLoaddata => 0x210000#24
  | .ppWrfuse => 0x220000#24
  | .ppRdfuse => 0x230000#24
  | .spXfer => 0x300000#24
  | .spWrfuse => 0x320000#24
  | .spRdfuse => 0x330000#24

/-- R81: "a word w selects the row when w & mask = match". -/
def Opcode.selects (o : Opcode) (w : CmdWord) : Bool :=
  w &&& o.mask == o.pattern

/-! ### The word's three fields (R80) -/

/-- `op`, bits 23:16. -/
def opField (w : CmdWord) : Byte := w.extractLsb' 16 8

/-- `a`, bits 15:8. -/
def aField (w : CmdWord) : Byte := w.extractLsb' 8 8

/-- `b`, bits 7:0. -/
def bField (w : CmdWord) : Byte := w.extractLsb' 0 8

/-- `{op, a, b}`: `op` in the most significant byte (R64, R80). -/
def packWord (op a b : Byte) : CmdWord := op ++ a ++ b

/-! ### The decoder -/

/-- The instruction a row's operand fields give, or none where R96 (b), (c) or (d) makes the word illegal. -/
def decodeOperands (o : Opcode) (a b : Byte) : Option Instr :=
  match o with
  | .setmode => unused? a ((modeOperand? b).map .setmode)
  | .enter => unused? a (unused? b (some .enter))
  | .exit => unused? a (unused? b (some .exit))
  | .setdir => (lineOperand? a).bind fun l => (directionOperand? b).map fun d => .setdir l d
  | .wrline => (lineOperand? a).bind fun l => (levelOperand? b).map fun v => .wrline l v
  | .rdline => unused? b ((lineOperand? a).map .rdline)
  | .strobe => (lineOperand? a).map fun l => .strobe l b
  | .delayms => some (.delayms (a ++ b))
  | .delayus => some (.delayus (a ++ b))
  | .setbusdir => unused? a ((directionOperand? b).map .setbusdir)
  | .wrbus => unused? a (some (.wrbus b))
  | .rdbus => unused? a (unused? b (some .rdbus))
  | .ppSendcmd => unused? a (some (.ppSendcmd b))
  | .ppLoaddata => unused? a (some (.ppLoaddata b))
  | .ppWrfuse => (selectorOperand? a).map fun sel => .ppWrfuse sel b
  | .ppRdfuse => unused? b ((selectorOperand? a).map .ppRdfuse)
  | .spXfer => some (.spXfer b a)
  | .spWrfuse => (selectorOperand? a).map fun sel => .spWrfuse sel b
  | .spRdfuse => unused? b ((selectorOperand? a).map .spRdfuse)

/-- The decoder: total on every 24-bit word; none is exactly an illegal word (R96), which the engine refuses by
the name `IllegalCommand` (R184). -/
def decode (w : CmdWord) : Option Instr :=
  (opcode? (opField w)).bind fun o => decodeOperands o (aField w) (bField w)

/-! ### The encoder -/

/-- The row of an instruction. -/
def Instr.opcode : Instr → Opcode
  | .setmode _ => .setmode
  | .enter => .enter
  | .exit => .exit
  | .setdir _ _ => .setdir
  | .wrline _ _ => .wrline
  | .rdline _ => .rdline
  | .strobe _ _ => .strobe
  | .delayms _ => .delayms
  | .delayus _ => .delayus
  | .setbusdir _ => .setbusdir
  | .wrbus _ => .wrbus
  | .rdbus => .rdbus
  | .ppSendcmd _ => .ppSendcmd
  | .ppLoaddata _ => .ppLoaddata
  | .ppWrfuse _ _ => .ppWrfuse
  | .ppRdfuse _ => .ppRdfuse
  | .spXfer _ _ => .spXfer
  | .spWrfuse _ _ => .spWrfuse
  | .spRdfuse _ => .spRdfuse

/-- The field `a` of an instruction (R81, R98). -/
def Instr.aOperand : Instr → Byte
  | .setmode _ => 0x00#8
  | .enter => 0x00#8
  | .exit => 0x00#8
  | .setdir l _ => l.id
  | .wrline l _ => l.id
  | .rdline l => l.id
  | .strobe l _ => l.id
  | .delayms n => n.extractLsb' 8 8
  | .delayus n => n.extractLsb' 8 8
  | .setbusdir _ => 0x00#8
  | .wrbus _ => 0x00#8
  | .rdbus => 0x00#8
  | .ppSendcmd _ => 0x00#8
  | .ppLoaddata _ => 0x00#8
  | .ppWrfuse sel _ => sel.setWidth 8
  | .ppRdfuse sel => sel.setWidth 8
  | .spXfer _ i => i
  | .spWrfuse sel _ => sel.setWidth 8
  | .spRdfuse sel => sel.setWidth 8

/-- The field `b` of an instruction (R81, R98). -/
def Instr.bOperand : Instr → Byte
  | .setmode m => m.code
  | .enter => 0x00#8
  | .exit => 0x00#8
  | .setdir _ d => d.code
  | .wrline _ v => v.code
  | .rdline _ => 0x00#8
  | .strobe _ h => h
  | .delayms n => n.extractLsb' 0 8
  | .delayus n => n.extractLsb' 0 8
  | .setbusdir d => d.code
  | .wrbus b => b
  | .rdbus => 0x00#8
  | .ppSendcmd b => b
  | .ppLoaddata b => b
  | .ppWrfuse _ v => v
  | .ppRdfuse _ => 0x00#8
  | .spXfer d _ => d
  | .spWrfuse _ v => v
  | .spRdfuse _ => 0x00#8

/-- The command word of an instruction (R80, R81, R98). -/
def encode (i : Instr) : CmdWord :=
  packWord i.opcode.code i.aOperand i.bOperand

/-! ### Words as the opcode table numbers them -/

/-- The command word whose bits are `w`, of which the table gives `nbits`: one 24-bit port value (R64, R80). -/
def tableWord (nbits w : Nat) : CmdWord := BitVec.ofNat 24 (w % 2 ^ nbits)

/-- The instruction the decoder reads from a word of the opcode table. -/
def decodeTableWord (nbits w : Nat) : Option Instr := decode (tableWord nbits w)

/-! ### The assembler's pseudo-instructions (R99), expanded before the engine sees them -/

/-- `RDFUSE sel` in a program whose mode is `m`; none before the program's first `SETMODE`. -/
def pseudoRdfuse (m : Mode) (f : FuseSel) : Option Instr :=
  match m with
  | .atmega => some (.ppRdfuse f.bits)
  | .tiny2313 => some (.ppRdfuse f.bits)
  | .hvsp => some (.spRdfuse f.bits)
  | .unselected => none

/-- `WRFUSE sel, value`, by the same rule. -/
def pseudoWrfuse (m : Mode) (f : FuseSel) (v : Byte) : Option Instr :=
  match m with
  | .atmega => some (.ppWrfuse f.bits v)
  | .tiny2313 => some (.ppWrfuse f.bits v)
  | .hvsp => some (.spWrfuse f.bits v)
  | .unselected => none

/-- `NOP` is `DELAYUS 0` (R97, R99). -/
def pseudoNop : Instr := .delayus 0#16

/-- `WRPULSE` is `WRLINE WR, L`, `DELAYMS 1`, `WRLINE WR, H` (R99). -/
def pseudoWrpulse : List Instr := [.wrline .wr .low, .delayms 1#16, .wrline .wr .high]

end Sys2Proof
end

