-- ==== Sys2Proof/Config.lean ====
section
/-!
DEFINITION. The configuration of the engine (R5, R161): the parameters the spec leaves to the machine's maker,
as one record, and the two free values of the model. The stated defaults are in Sys2Proof/Machine/Defaults.lean.
-/

namespace Sys2Proof

/-- One (data, instruction) pair of an HVSP frame (R91). -/
structure FramePair where
  data  : Byte
  instr : Byte
deriving DecidableEq, Repr

/-- A read row of `SPTAB`: three frames (R161). -/
structure SpReadRow where
  first  : FramePair
  second : FramePair
  third  : FramePair
deriving DecidableEq, Repr

/-- A write row of `SPTAB`: four frames; the second one's data byte is the fuse value, so only its instruction
byte is a constant (R161). -/
structure SpWriteRow where
  first       : FramePair
  secondInstr : Byte
  third       : FramePair
  fourth      : FramePair
deriving DecidableEq, Repr

/-- The constant table `SPTAB`: a read row and a write row for each selector (R60, R161). -/
structure SpTab where
  rdLow  : SpReadRow
  rdHigh : SpReadRow
  rdExt  : SpReadRow
  wrLow  : SpWriteRow
  wrHigh : SpWriteRow
  wrExt  : SpWriteRow
deriving DecidableEq, Repr

/-- The rows of R5 marked *parameter*, with `SPTAB` (R161: "a model should take SPTAB as a configuration table").
`POLL_LIMIT` is an integer ≥ 1, so the record holds its predecessor and no value of the record breaks that. -/
structure Params where
  extEn         : Bool
  vccOn         : Level
  rstOn         : Level
  tBusSetupMs   : Nat
  tXtalHoldMs   : Nat
  tBusHoldMs    : Nat
  tSelSetupMs   : Nat
  tWrLowMs      : Nat
  tOeMs         : Nat
  tSciSetupUs   : Nat
  tSciHighUs    : Nat
  tPollUs       : Nat
  pollLimitPred : Nat
  spTab         : SpTab
deriving DecidableEq, Repr

/-- FREE VALUE: the level of the n-th line sample the spec leaves open (R29, R31; U1, U3). It has no body: nothing
can be proved of its value. DESIGN CHOICE (safe), log entry 3. -/
opaque Config.freeLevel : Nat → Level

/-- FREE VALUE: the byte of the n-th bus sample the spec leaves open (R31, R34; U1, U3). DESIGN CHOICE (safe), log
entry 3. -/
opaque Config.freeByte : Nat → Byte

end Sys2Proof
end

