-- ==== Sys2Proof/Machine/Defaults.lean ====
section
/-!
DEFINITION. The stated values of R5 (fixed constants and the defaults of the parameters), the default `SPTAB` of
R161, and the reset values of the line registers (R41).
-/

namespace Sys2Proof.Machine

/-- `T_VCC_US`, fixed (R5; DESIGN CHOICE, safe: log entry 14). -/
def tVccUs : Nat := 80

/-- `T_RST_US`, fixed (R5). -/
def tRstUs : Nat := 10

/-- `T_SDO_US`, fixed and nominal (R5, R6; 90_conflicts C6). -/
def tSdoUs : Nat := 1

/-- The default `SPTAB` (R161). -/
def defaultSpTab : SpTab where
  rdLow := ⟨⟨0x04#8, 0x4C#8⟩, ⟨0x00#8, 0x68#8⟩, ⟨0x00#8, 0x6C#8⟩⟩
  rdHigh := ⟨⟨0x04#8, 0x4C#8⟩, ⟨0x00#8, 0x7A#8⟩, ⟨0x00#8, 0x7E#8⟩⟩
  rdExt := ⟨⟨0x04#8, 0x4C#8⟩, ⟨0x00#8, 0x6A#8⟩, ⟨0x00#8, 0x6E#8⟩⟩
  wrLow := ⟨⟨0x40#8, 0x4C#8⟩, 0x2C#8, ⟨0x00#8, 0x64#8⟩, ⟨0x00#8, 0x6C#8⟩⟩
  wrHigh := ⟨⟨0x40#8, 0x4C#8⟩, 0x2C#8, ⟨0x00#8, 0x74#8⟩, ⟨0x00#8, 0x7C#8⟩⟩
  wrExt := ⟨⟨0x40#8, 0x4C#8⟩, 0x2C#8, ⟨0x00#8, 0x66#8⟩, ⟨0x00#8, 0x6E#8⟩⟩

/-- The defaults of R5. `POLL_LIMIT` is open there; 10000 is the setting D12 calls reasonable (DESIGN CHOICE, unsafe: log
entry 2). -/
def defaultParams : Params where
  extEn := true
  vccOn := .high
  rstOn := .low
  tBusSetupMs := 1
  tXtalHoldMs := 1
  tBusHoldMs := 1
  tSelSetupMs := 1
  tWrLowMs := 1
  tOeMs := 1
  tSciSetupUs := 1
  tSciHighUs := 1
  tPollUs := 100
  pollLimitPred := 9999
  spTab := defaultSpTab

/-- `DIR` at reset (R41): VCC and RST Output, every other line Input. -/
def resetDir : PerLine Direction where
  vcc := .output
  rst := .output
  oe := .input
  wr := .input
  xtal1 := .input
  rdy := .input
  bs1 := .input
  bs2 := .input
  xa0 := .input
  xa1 := .input
  pagel := .input
  start := .input

/-- `OUT` at reset (R41): `OFF(VCC)`, `OFF(RST)`, every other latch Low. -/
def resetOut (p : Params) : PerLine Level where
  vcc := p.vccOn.flip
  rst := p.rstOn.flip
  oe := .low
  wr := .low
  xtal1 := .low
  rdy := .low
  bs1 := .low
  bs2 := .low
  xa0 := .low
  xa1 := .low
  pagel := .low
  start := .low

end Sys2Proof.Machine
end

