-- ==== Sys2Proof/Machine/State.lean ====
section
/-!
DEFINITION. The state of the engine (R20) as plain data, with what its two neighbours supply and observe (the
host's inputs and responses, the environment's answers to samples, the trace), and the state after reset (R41).
-/

namespace Sys2Proof.Machine

/-- The completion codes 0 to 8 of `ERR` (R180). Codes 9 to 15 are reserved and never produced, so the type has
no value for them; `ErrCode.code` gives the 4-bit numbers. -/
inductive ErrCode where
  | ok
  | targetTimeout
  | illegalCommand
  | notEntered
  | alreadyEntered
  | modeMismatch
  | modeUnselected
  | modeLocked
  | badSelector
deriving DecidableEq, Repr, Inhabited

/-- One event of the trace (00_scope section 5): the outside of one executed primitive. -/
inductive Event where
  | dir (l : Line) (d : Direction)
  | drv (l : Line) (v : Level)
  | smp (l : Line) (v : Level)
  | bdir (d : Direction)
  | bdrv (b : Byte)
  | bsmp (b : Byte)
  | waitUs (n : Nat)
  | waitMs (n : Nat)
deriving DecidableEq, Repr

/-- What the host puts on the engine's two inputs (R38, R39, R210; DESIGN CHOICE, safe: log entry 4): a command word on the command port, the reset
input while no operation executes, or a command word with the reset input asserted after `events` primitives
of its operation and before its completion (R211). -/
inductive HostInput where
  | command (w : CmdWord)
  | reset
  | commandThenReset (w : CmdWord) (events : Nat)
deriving DecidableEq, Repr

/-- What the response port presents at a completion: the pair (`ERR`, `RESULT`) (R38). -/
structure Response where
  err    : ErrCode
  result : Byte
deriving DecidableEq, Repr

/-- The state: first the registers of R20, then what the model adds (DESIGN CHOICE: log entries 2, 3,
4, 5, 6; safe and unsafe as each says). -/
structure State where
  /-- `MODE` (R21). -/
  mode      : Mode
  /-- `ENTERED` (R22). -/
  entered   : Bool
  /-- `DIR[0..11]` (R27). -/
  dir       : PerLine Direction
  /-- `OUT[0..11]` (R28). -/
  out       : PerLine Level
  /-- `BUSDIR` (R32). -/
  busDir    : Direction
  /-- `BUSOUT` (R33). -/
  busOut    : Byte
  /-- `OPC` (R24). -/
  opc       : Byte
  /-- `OPA` (R24). -/
  opa       : Byte
  /-- `OPB` (R24). -/
  opb       : Byte
  /-- `RESP`, the HVSP response accumulator (R160). -/
  resp      : Byte
  /-- `RESULT` (R24). -/
  result    : Byte
  /-- `ERR` (R43, R180). -/
  err       : ErrCode
  /-- `BUSY` (R38). -/
  busy      : Bool
  /-- `upc` (R26). -/
  upc       : BitVec 9
  /-- `PCNT` (R186); parameter-sized, and never above `POLL_LIMIT` (R72). -/
  pcnt      : Nat
  /-- The MODEL's: the configuration (R5), which no step writes. -/
  cfg       : Params
  /-- The MODEL's: what the host will put on the engine's inputs, in order (R38, R71). -/
  hostIn    : List HostInput
  /-- The MODEL's: the environment's answers to the next samples of Input lines (`PIN`, R31). -/
  pinIn     : List Level
  /-- The MODEL's: the environment's answers to the next samples of the Input bus (`BUSIN`, R31). -/
  busIn     : List Byte
  /-- The MODEL's: how many free values have been drawn. -/
  draws     : Nat
  /-- The MODEL's: every event so far, oldest first. -/
  trace     : List Event
  /-- The MODEL's: every response presented so far, oldest first (R38). -/
  responses : List Response
deriving DecidableEq, Repr

/-- Why a step can stop with a fault: never. The engine has no fault; what the spec calls an exception ends the
operation with an error code in `ERR`, which is a next state (R180, R183, R187). No constructor, so nothing
raises one. DEDUCED (safe), log entry 8. -/
inductive Fault where
deriving DecidableEq, Repr

/-- Why a step can be refused. -/
inductive Refusal where
  /-- Raised by exec's arm of an instruction that has no meaning yet (safe). No arm is such an arm now. -/
  | notModelled (mnemonic : String)
deriving DecidableEq, Repr

/-- The outcome of an operation or of a step. -/
abbrev Outcome := Host.Outcome State Fault Refusal

/-- Every register at its reset value (R41), under the configuration `p`; nothing on the inputs, nothing
observed yet. -/
def State.ofParams (p : Params) : State where
  mode := .unselected
  entered := false
  dir := resetDir
  out := resetOut p
  busDir := .input
  busOut := 0x00#8
  opc := 0x00#8
  opa := 0x00#8
  opb := 0x00#8
  resp := 0x00#8
  result := 0x00#8
  err := .ok
  busy := false
  upc := 0#9
  pcnt := 0
  cfg := p
  hostIn := []
  pinIn := []
  busIn := []
  draws := 0
  trace := []
  responses := []

/-- The engine right after reset, with the default configuration. -/
def State.reset : State := State.ofParams defaultParams

end Sys2Proof.Machine
end

