-- ==== Sys2Proof/Machine/Operands.lean ====
section
/-!
DEFINITION. Operands: reading and writing one cell of a line register, bits of a byte, the levels of the two
enables, role resolution, fuse selectors and their select-line pattern, and the rows of `SPTAB`.
-/

namespace Sys2Proof.Machine

/-- The cell of line `l`: `DIR[l]`, `OUT[l]` (R20). -/
def getCell {α : Type} (r : PerLine α) (l : Line) : α :=
  match l with
  | .vcc => r.vcc
  | .rst => r.rst
  | .oe => r.oe
  | .wr => r.wr
  | .xtal1 => r.xtal1
  | .rdy => r.rdy
  | .bs1 => r.bs1
  | .bs2 => r.bs2
  | .xa0 => r.xa0
  | .xa1 => r.xa1
  | .pagel => r.pagel
  | .start => r.start

/-- `r[l] <- v`: one cell changes (R66). -/
def setCell {α : Type} (r : PerLine α) (l : Line) (v : α) : PerLine α :=
  match l with
  | .vcc => { r with vcc := v }
  | .rst => { r with rst := v }
  | .oe => { r with oe := v }
  | .wr => { r with wr := v }
  | .xtal1 => { r with xtal1 := v }
  | .rdy => { r with rdy := v }
  | .bs1 => { r with bs1 := v }
  | .bs2 => { r with bs2 := v }
  | .xa0 => { r with xa0 := v }
  | .xa1 => { r with xa1 := v }
  | .pagel => { r with pagel := v }
  | .start => { r with start := v }

/-- `b[k]` as a level (R72 (a)). -/
def bitLevel (b : Byte) (k : Nat) : Level := Level.ofBit (b.getLsbD k)

/-- `b[k] <- v` (R72 (b)). -/
def setBit (b : Byte) (k : Nat) (v : Level) : Byte :=
  match v with
  | .high => b ||| (0x01#8 <<< k)
  | .low => b &&& ~~~(0x01#8 <<< k)

/-- `ON(VCC)` (R5). -/
def vccOnLevel (p : Params) : Level := p.vccOn

/-- `OFF(VCC)` (R5). -/
def vccOffLevel (p : Params) : Level := p.vccOn.flip

/-- `ON(RST)` (R5). -/
def rstOnLevel (p : Params) : Level := p.rstOn

/-- `OFF(RST)` (R5). -/
def rstOffLevel (p : Params) : Level := p.rstOn.flip

/-- `POLL_LIMIT` (R5). -/
def pollLimit (p : Params) : Nat := p.pollLimitPred + 1

/-- The logical signal names of the protocols (R25). -/
inductive Role where
  | vcc | rst | oe | wr
  | xtal1 | rdy | bs1 | xa0 | xa1
  | bs2 | pagel
  | sci | sdo | sii | sdi
deriving DecidableEq, Repr

/-- Role resolution ρ, a pure function of MODE (R25); none where the role is not one of the mode. Unselected has
no protocol engine (R21) and so no role (DEDUCED, safe: log entry 12). -/
def rho (m : Mode) (r : Role) : Option Line :=
  match m with
  | .atmega =>
    match r with
    | .vcc => some .vcc
    | .rst => some .rst
    | .oe => some .oe
    | .wr => some .wr
    | .xtal1 => some .xtal1
    | .rdy => some .rdy
    | .bs1 => some .bs1
    | .xa0 => some .xa0
    | .xa1 => some .xa1
    | .bs2 => some .bs2
    | .pagel => some .pagel
    | .sci => none
    | .sdo => none
    | .sii => none
    | .sdi => none
  | .tiny2313 =>
    match r with
    | .vcc => some .vcc
    | .rst => some .rst
    | .oe => some .oe
    | .wr => some .wr
    | .xtal1 => some .xtal1
    | .rdy => some .rdy
    | .bs1 => some .bs1
    | .xa0 => some .xa0
    | .xa1 => some .xa1
    | .bs2 => some .xa1
    | .pagel => some .bs1
    | .sci => none
    | .sdo => none
    | .sii => none
    | .sdi => none
  | .hvsp =>
    match r with
    | .vcc => some .vcc
    | .rst => some .rst
    | .oe => some .oe
    | .wr => some .wr
    | .xtal1 => none
    | .rdy => none
    | .bs1 => none
    | .xa0 => none
    | .xa1 => none
    | .bs2 => none
    | .pagel => none
    | .sci => some .bs1
    | .sdo => some .rdy
    | .sii => some .xa0
    | .sdi => some .xa1
  | .unselected => none

/-- The fuse a selector field names, under `EXT_EN`: none for 3, and for 2 when the Extended option is off (R86). -/
def fuse? (extEn : Bool) (sel : BitVec 2) : Option FuseSel :=
  if sel = FuseSel.low.bits then some .low
  else if sel = FuseSel.high.bits then some .high
  else if sel = FuseSel.extended.bits && extEn then some .extended
  else none

/-- `pat1(sel)`, the level on role BS1 (R89). -/
def pat1 : FuseSel → Level
  | .low => .low
  | .high => .high
  | .extended => .low

/-- `pat2(sel)`, the level on role BS2 (R89). -/
def pat2 : FuseSel → Level
  | .low => .low
  | .high => .high
  | .extended => .high

/-- `SPTAB.rd[sel]` (R161). -/
def spRead (t : SpTab) : FuseSel → SpReadRow
  | .low => t.rdLow
  | .high => t.rdHigh
  | .extended => t.rdExt

/-- `SPTAB.wr[sel]` (R161). -/
def spWrite (t : SpTab) : FuseSel → SpWriteRow
  | .low => t.wrLow
  | .high => t.wrHigh
  | .extended => t.wrExt

end Sys2Proof.Machine
end

