-- ==== Sys2Proof/Machine/Flags.lean ====
section
/-!
DEFINITION. Status. The engine has no arithmetic condition codes (R43): its flags are `BUSY`, `ENTERED` and
`ERR`. Here are the 4-bit numbers of `ERR` and the checks that read the status before an operation's first
primitive (R181, R182).
-/

namespace Sys2Proof.Machine

/-- The 4-bit code of `ERR` (R180). -/
def ErrCode.code : ErrCode → BitVec 4
  | .ok => 0#4
  | .targetTimeout => 1#4
  | .illegalCommand => 2#4
  | .notEntered => 3#4
  | .alreadyEntered => 4#4
  | .modeMismatch => 5#4
  | .modeUnselected => 6#4
  | .modeLocked => 7#4
  | .badSelector => 8#4

/-- `cmd_ready`: NOT `BUSY` (R38). -/
def cmdReady (s : State) : Bool := !s.busy

/-- Lifecycle check of `SETMODE` (R130, R182). -/
def modeLockedCheck (s : State) : Option ErrCode :=
  if s.entered then some .modeLocked else none

/-- Decode check of a mode operand: Unselected is no mode (R96 (d); DEDUCED, safe: log entry 13). -/
def modeOperandCheck (m : Mode) : Option ErrCode :=
  if m = .unselected then some .illegalCommand else none

/-- Lifecycle check of `ENTER` (R182). -/
def alreadyEnteredCheck (s : State) : Option ErrCode :=
  if s.entered then some .alreadyEntered else none

/-- Mode check of `ENTER` (R182). -/
def modeUnselectedCheck (s : State) : Option ErrCode :=
  if s.mode = .unselected then some .modeUnselected else none

/-- Lifecycle check of `EXIT` and of every protocol operation (R182). -/
def notEnteredCheck (s : State) : Option ErrCode :=
  if s.entered then none else some .notEntered

/-- Mode check of the `PP_` operations (R140, R182): `MODE` = 2. -/
def parallelCheck (s : State) : Option ErrCode :=
  if s.mode = .hvsp then some .modeMismatch else none

/-- Mode check of the `SP_` operations (R164, R182): `MODE` ≠ 2. -/
def serialCheck (s : State) : Option ErrCode :=
  if s.mode = .hvsp then none else some .modeMismatch

/-- Selector check of the fuse operations (R140, R164, R182). -/
def selectorCheck (s : State) (sel : BitVec 2) : Option ErrCode :=
  match fuse? s.cfg.extEn sel with
  | some _ => none
  | none => some .badSelector

/-- The checks are made in order and the first that fails decides the code (R181). -/
def firstFailing : List (Option ErrCode) → Option ErrCode
  | [] => none
  | none :: rest => firstFailing rest
  | some e :: _ => some e

end Sys2Proof.Machine
end

