-- ==== Sys2Proof/Machine/Ops.lean ====
section
/-!
DEFINITION. The shared operations: the nine primitives over the lines, the bus and time (R27 to R36, R186), the
sequencer that performs a primitive list (R26), acceptance and completion of an operation (R24, R38, R43), the
refusal (R183), the exit list (R133), the timeout abort, which is the engine's one exception (R187), and reset
(R210, R211).
-/

namespace Sys2Proof.Machine

/-! ### The primitives -/

/-- `DIR(l, d)` (R27). -/
def dirLine (l : Line) (d : Direction) (s : State) : State :=
  { s with dir := setCell s.dir l d, trace := s.trace ++ [.dir l d] }

/-- `DRV(l, v)` (R28): the latch is written whatever the direction. -/
def drvLine (l : Line) (v : Level) (s : State) : State :=
  { s with out := setCell s.out l v, trace := s.trace ++ [.drv l v] }

/-- The level a sample of line `l` returns (R29). An Input line gives the environment's next answer, or a free
value when `pinIn` holds none; an Output line gives a free value, never `OUT[l]`. -/
def sampledLevel (l : Line) (s : State) : Level :=
  match getCell s.dir l, s.pinIn with
  | .input, v :: _ => v
  | .input, [] => Config.freeLevel s.draws
  | .output, _ => Config.freeLevel s.draws

/-- What a line sample uses up: the environment's answer it took, or one free value. -/
def useLevel (l : Line) (s : State) : State :=
  match getCell s.dir l, s.pinIn with
  | .input, _ :: rest => { s with pinIn := rest }
  | .input, [] => { s with draws := s.draws + 1 }
  | .output, _ => { s with draws := s.draws + 1 }

/-- `SMP(l)` (R29): changes no register. The level is `sampledLevel l s`. -/
def smpLine (l : Line) (s : State) : State :=
  { useLevel l s with trace := s.trace ++ [.smp l (sampledLevel l s)] }

/-- `BDIR(d)` (R32). -/
def busDirection (d : Direction) (s : State) : State :=
  { s with busDir := d, trace := s.trace ++ [.bdir d] }

/-- `BDRV(b)` (R33): the latch is written whatever the direction. -/
def busDrive (b : Byte) (s : State) : State :=
  { s with busOut := b, trace := s.trace ++ [.bdrv b] }

/-- The byte a sample of the bus returns (R34), on the pattern of `sampledLevel`. -/
def sampledByte (s : State) : Byte :=
  match s.busDir, s.busIn with
  | .input, b :: _ => b
  | .input, [] => Config.freeByte s.draws
  | .output, _ => Config.freeByte s.draws

/-- What a bus sample uses up. -/
def useByte (s : State) : State :=
  match s.busDir, s.busIn with
  | .input, _ :: rest => { s with busIn := rest }
  | .input, [] => { s with draws := s.draws + 1 }
  | .output, _ => { s with draws := s.draws + 1 }

/-- `BSMP()` (R34): changes no register. The byte is `sampledByte s`. -/
def busSample (s : State) : State :=
  { useByte s with trace := s.trace ++ [.bsmp (sampledByte s)] }

/-- `WAITUS(n)` (R36): an event, no register. -/
def waitUs (n : Nat) (s : State) : State :=
  { s with trace := s.trace ++ [.waitUs n] }

/-- `WAITMS(n)` (R36): an event, no register. -/
def waitMs (n : Nat) (s : State) : State :=
  { s with trace := s.trace ++ [.waitMs n] }

/-- `PCNT <- PCNT + 1` (R186). -/
def countLow (s : State) : State := { s with pcnt := s.pcnt + 1 }

/-- The loop of `POLL(l)` (R186), with `left` further samples allowed after this one; the Bool says whether a
sample was High. -/
def pollLoop (l : Line) : Nat → State → State × Bool
  | 0, s =>
    match sampledLevel l s with
    | .high => (smpLine l s, true)
    | .low => (countLow (smpLine l s), false)
  | left + 1, s =>
    match sampledLevel l s with
    | .high => (smpLine l s, true)
    | .low => pollLoop l left (waitUs s.cfg.tPollUs (countLow (smpLine l s)))

/-- `POLL(l)` (R186): true for done, false for `TargetTimeout` after `POLL_LIMIT` Low samples. -/
def poll (l : Line) (s : State) : State × Bool :=
  pollLoop l s.cfg.pollLimitPred { s with pcnt := 0 }

/-! ### What the target can see (R30) -/

/-- The pin view of a line: its latch if it is Output, undriven (none) if it is Input (R30). -/
def pinOut (l : Line) (s : State) : Option Level :=
  match getCell s.dir l with
  | .output => some (getCell s.out l)
  | .input => none

/-- The pin view of the bus: `BUSOUT` if it is Output, undriven (none) if it is Input (R32, R33, R35). -/
def busPins (s : State) : Option Byte :=
  match s.busDir with
  | .output => some s.busOut
  | .input => none

/-! ### The sequencer (R26) -/

/-- One entry of an operation's list. The first nine are the spec's primitives; the others are the register
transfers the rules write between primitives, which give no event and no step of `upc`. -/
inductive Action where
  | dir (l : Line) (d : Direction)
  | drv (l : Line) (v : Level)
  | smp (l : Line)
  | bdir (d : Direction)
  | bdrv (b : Byte)
  | bsmp
  | waitUs (n : Nat)
  | waitMs (n : Nat)
  | poll (l : Line)
  | clearResp
  | respBit (k : Nat)
  | setMode (m : Mode)
  | setEntered (e : Bool)
  | resultFromSample
  | resultFromResp
deriving DecidableEq, Repr

/-- A primitive of the spec, as against a register transfer. -/
def Action.isPrimitive : Action → Bool
  | .dir _ _ => true
  | .drv _ _ => true
  | .smp _ => true
  | .bdir _ => true
  | .bdrv _ => true
  | .bsmp => true
  | .waitUs _ => true
  | .waitMs _ => true
  | .poll _ => true
  | .clearResp => false
  | .respBit _ => false
  | .setMode _ => false
  | .setEntered _ => false
  | .resultFromSample => false
  | .resultFromResp => false

/-- An operation under way: the state, the rules' `v` (the value last sampled), and whether a `POLL` has raised
`TargetTimeout`, after which the rest of the list is dropped (R187). -/
structure Run where
  st       : State
  val      : Byte
  timedOut : Bool
deriving DecidableEq, Repr

/-- "Performing a primitive advances `upc` by exactly 1" (R26). -/
def advance (s : State) : State := { s with upc := s.upc + 1#9 }

/-- One entry of the list, in a run that has not timed out. -/
def performAction (r : Run) (a : Action) : Run :=
  match a with
  | .dir l d => { r with st := advance (dirLine l d r.st) }
  | .drv l v => { r with st := advance (drvLine l v r.st) }
  | .smp l => { r with st := advance (smpLine l r.st), val := (sampledLevel l r.st).code }
  | .bdir d => { r with st := advance (busDirection d r.st) }
  | .bdrv b => { r with st := advance (busDrive b r.st) }
  | .bsmp => { r with st := advance (busSample r.st), val := sampledByte r.st }
  | .waitUs n => { r with st := advance (waitUs n r.st) }
  | .waitMs n => { r with st := advance (waitMs n r.st) }
  | .poll l =>
    let q := poll l r.st
    if q.2 then { r with st := advance q.1 } else { r with st := q.1, timedOut := true }
  | .clearResp => { r with st := { r.st with resp := 0x00#8 } }
  | .respBit k => { r with st := { r.st with resp := setBit r.st.resp k (bitLevel r.val 0) } }
  | .setMode m => { r with st := { r.st with mode := m } }
  | .setEntered e => { r with st := { r.st with entered := e } }
  | .resultFromSample => { r with st := { r.st with result := r.val } }
  | .resultFromResp => { r with st := { r.st with result := r.st.resp } }

/-- The next entry of the list; nothing once `TargetTimeout` is raised (R187). -/
def stepRun (r : Run) (a : Action) : Run :=
  if r.timedOut then r else performAction r a

/-- The list performed in order, one entry at a time (R26, R68). -/
def runList (p : List Action) (r : Run) : Run := p.foldl stepRun r

/-- The list performed from a state. -/
def run (p : List Action) (s : State) : Run := runList p ⟨s, 0x00#8, false⟩

/-! ### Lists several operations share -/

/-- The primitive on the line that carries role `r` in mode `m`; none where the mode has no such role (R25). -/
def onRole (m : Mode) (r : Role) (f : Line → Action) : List Action :=
  match rho m r with
  | some l => [f l]
  | none => []

/-- `DRV(ρ(r), v)`. -/
def drvRole (m : Mode) (r : Role) (v : Level) : List Action := onRole m r (fun l => .drv l v)

/-- The lines the exit list visits: ids 2 to 10, ascending (R133). -/
def exitLines : List Line := [.oe, .wr, .xtal1, .rdy, .bs1, .bs2, .xa0, .xa1, .pagel]

/-- The exit list's entry for a line: Low then Input if it is Output, nothing if it is Input (R133). -/
def releaseLine (dir : PerLine Direction) (l : Line) : List Action :=
  match getCell dir l with
  | .output => [.drv l .low, .dir l .input]
  | .input => []

/-- The primitive list of `EXIT` (R133), computed from `DIR` at its start: no entry changes the direction of a
line the loop has yet to reach, so this is `DIR` "as it stands when the loop reaches each line" (DEDUCED, safe: log
entry 9). -/
def exitList (p : Params) (dir : PerLine Direction) : List Action :=
  .drv .rst (rstOffLevel p) :: .bdir .input ::
    (exitLines.flatMap (releaseLine dir) ++ [Action.drv .vcc (vccOffLevel p)])

/-! ### Acceptance, completion, refusal, abort -/

/-- A command word is accepted: the fields are latched, the operation starts (R24, R38). -/
def accept (w : CmdWord) (s : State) : State :=
  { s with opc := opField w, opa := aField w, opb := bField w, busy := true, upc := 0#9 }

/-- Completion: `ERR` is written, (`ERR`, `RESULT`) is presented once, the engine is ready again (R26, R38, R43). -/
def complete (e : ErrCode) (s : State) : State :=
  { s with err := e, busy := false, upc := 0#9, responses := s.responses ++ [⟨e, s.result⟩] }

/-- `raise E` for codes 2 to 8: no primitive, no register but `ERR`, and the operation completes at once (R183). -/
def refuse (e : ErrCode) (s : State) : State := complete e s

/-- `raise TargetTimeout`: the abort, the engine's only trap (R187). `ENTERED` is cleared, the whole exit list is
performed from its index 0, and the operation completes with code 1. Nothing is saved, and there is no return
operation beside it (R188). -/
def abort (s : State) : State :=
  let t := { s with entered := false, upc := 0#9 }
  complete .targetTimeout (run (exitList t.cfg t.dir) t).st

/-- An accepted operation whose checks have passed: its list, then completion, or the abort. -/
def conduct (p : List Action) (s : State) : State :=
  let r := run p s
  if r.timedOut then abort r.st else complete .ok r.st

/-- An operation's list behind its checks, in their order (R181). -/
def planned (checks : List (Option ErrCode)) (p : List Action) : Except ErrCode (List Action) :=
  match firstFailing checks with
  | some e => .error e
  | none => .ok p

/-- The list of a fuse operation, for the fuse its selector names; a selector that names none has been refused
by `selectorCheck` before. -/
def withFuse (extEn : Bool) (sel : BitVec 2) (p : FuseSel → List Action) : List Action :=
  match fuse? extEn sel with
  | some f => p f
  | none => []

/-- One whole operation: acceptance of its word, then the refusal its checks raise or its list. -/
def operate (i : Instr) (plan : Except ErrCode (List Action)) (s : State) : Outcome :=
  match plan with
  | .error e => .next (refuse e (accept (encode i) s))
  | .ok p => .next (conduct p (accept (encode i) s))

/-- An illegal word: accepted, and refused with `IllegalCommand` in every state (R96, R184). -/
def illegalWord (w : CmdWord) (s : State) : Outcome :=
  .next (refuse .illegalCommand (accept w s))

/-! ### Reset -/

/-- Reset asserted and released: every register takes its value of R41 (R210). The configuration is no register
(R212); what the host and the environment have yet to give, and what has been observed, is not the engine's. -/
def resetEngine (s : State) : State :=
  { State.ofParams s.cfg with
    hostIn := s.hostIn, pinIn := s.pinIn, busIn := s.busIn, draws := s.draws,
    trace := s.trace, responses := s.responses }

/-- How many answers of the environment the events of one operation took, given the directions it started
with: line answers, then bus answers. A sample of an Output line or Output bus took none (R29, R34). -/
def answersTaken (dir : PerLine Direction) (busDir : Direction) : List Event → Nat × Nat
  | [] => (0, 0)
  | .dir l d :: rest => answersTaken (setCell dir l d) busDir rest
  | .bdir d :: rest => answersTaken dir d rest
  | .smp l _ :: rest =>
    let (p, b) := answersTaken dir busDir rest
    match getCell dir l with
    | .input => (p + 1, b)
    | .output => (p, b)
  | .bsmp _ :: rest =>
    let (p, b) := answersTaken dir busDir rest
    match busDir with
    | .input => (p, b + 1)
    | .output => (p, b)
  | .drv _ _ :: rest => answersTaken dir busDir rest
  | .bdrv _ :: rest => answersTaken dir busDir rest
  | .waitUs _ :: rest => answersTaken dir busDir rest
  | .waitMs _ :: rest => answersTaken dir busDir rest

/-- Reset during an operation (R211): of the operation that would have led from `s` to `done`, the first `k`
events have happened; it is abandoned without completing and without a response, and the registers jump to
their reset values without any event. -/
def abandon (k : Nat) (s done : State) : State :=
  let events := (done.trace.drop s.trace.length).take k
  let taken := answersTaken s.dir s.busDir events
  { State.ofParams s.cfg with
    hostIn := s.hostIn
    pinIn := s.pinIn.drop taken.1
    busIn := s.busIn.drop taken.2
    draws := done.draws
    trace := s.trace ++ events
    responses := s.responses }

end Sys2Proof.Machine
end

