-- ==== Sys2Proof/Machine/Lines.lean ====
section
/-!
DEFINITION. The nine control-line, bus and timing operations (spec/40_line_primitives.md). They have no check
beyond decode (R182) and are accepted in every lifecycle state and every mode.
-/

namespace Sys2Proof.Machine

/-- `SETDIR line, dir` (R110). -/
def execSetdir (l : Line) (d : Direction) (s : State) : Outcome :=
  operate (.setdir l d) (.ok [.dir l d]) s

/-- `WRLINE line, level` (R111). -/
def execWrline (l : Line) (v : Level) (s : State) : Outcome :=
  operate (.wrline l v) (.ok [.drv l v]) s

/-- `RDLINE line` (R112). -/
def execRdline (l : Line) (s : State) : Outcome :=
  operate (.rdline l) (.ok [.smp l, .resultFromSample]) s

/-- `strobe(line, holdMs)`: set line High, hold, set Low (R113). -/
def strobeList (l : Line) (holdMs : Nat) : List Action :=
  [.drv l .high, .waitMs holdMs, .drv l .low]

/-- `STROBE line, holdMs` (R113). -/
def execStrobe (l : Line) (holdMs : Byte) (s : State) : Outcome :=
  operate (.strobe l holdMs) (.ok (strobeList l holdMs.toNat)) s

/-- `DELAYMS n` (R114). -/
def execDelayms (n : BitVec 16) (s : State) : Outcome :=
  operate (.delayms n) (.ok [.waitMs n.toNat]) s

/-- `DELAYUS n` (R115). -/
def execDelayus (n : BitVec 16) (s : State) : Outcome :=
  operate (.delayus n) (.ok [.waitUs n.toNat]) s

/-- `SETBUSDIR dir` (R116). -/
def execSetbusdir (d : Direction) (s : State) : Outcome :=
  operate (.setbusdir d) (.ok [.bdir d]) s

/-- `WRBUS byte` (R117). -/
def execWrbus (b : Byte) (s : State) : Outcome :=
  operate (.wrbus b) (.ok [.bdrv b]) s

/-- `RDBUS` (R118). -/
def execRdbus (s : State) : Outcome :=
  operate .rdbus (.ok [.bsmp, .resultFromSample]) s

end Sys2Proof.Machine
end

