-- ==== Sys2Proof/Machine/Hvpp.lean ====
section
/-!
DEFINITION. The HVPP (parallel) operations (spec/42_hvpp.md).
-/

namespace Sys2Proof.Machine

/-- `if MODE = 0: DRV(BS2, Low)` before the rest of a `LOAD` (R140). -/
def restBs2 (m : Mode) (rest : List Action) : List Action :=
  if m = .atmega then .drv .bs2 .low :: rest else rest

/-- The end of a `LOAD`: the bus is held after the strobe, then released (R140). -/
def busHoldList (p : Params) : List Action := [.waitMs p.tBusHoldMs, .bdir .input]

/-- Helper `LOAD(xa1, xa0, byte)` (R140): twelve primitives in MODE 0; the fourth is omitted in MODE 1, where the
role BS2 is carried by XA1. -/
def loadList (m : Mode) (p : Params) (xa1 xa0 : Level) (b : Byte) : List Action :=
  .drv .xa1 xa1 :: .drv .xa0 xa0 :: .drv .bs1 .low :: restBs2 m
    (.bdir .output :: .bdrv b :: .waitMs p.tBusSetupMs ::
      (strobeList .xtal1 p.tXtalHoldMs ++ busHoldList p))

/-- `sendCommand(byte)`: action select XA1 High, XA0 Low (R90, R141). -/
def sendCommandList (m : Mode) (p : Params) (b : Byte) : List Action := loadList m p .high .low b

/-- `loadFuseData(byte)`: action select XA1 Low, XA0 High (R90, R142). -/
def loadFuseDataList (m : Mode) (p : Params) (b : Byte) : List Action := loadList m p .low .high b

/-- Helper `SELECT(sel)` (R143): BS1 first, then the role BS2. -/
def selectList (m : Mode) (f : FuseSel) : List Action :=
  .drv .bs1 (pat1 f) :: drvRole m .bs2 (pat2 f)

/-- Helper `DESELECT` (R143). -/
def deselectList (m : Mode) : List Action :=
  .drv .bs1 .low :: drvRole m .bs2 .low

/-- The burn pulse on WR and the busy-wait (R144, primitives 26 to 30 of MODE 0). -/
def burnList (p : Params) : List Action :=
  [.waitMs p.tSelSetupMs, .drv .wr .low, .waitMs p.tWrLowMs, .drv .wr .high, .poll .rdy]

/-- The primitive list of `PP_WRFUSE` (R144); 0x40 is the command "enable fuse-write mode" (R87). -/
def ppWriteList (m : Mode) (p : Params) (f : FuseSel) (v : Byte) : List Action :=
  sendCommandList m p 0x40#8 ++ loadFuseDataList m p v ++ selectList m f ++ burnList p ++ deselectList m

/-- The output-enable pulse around the bus sample (R145, primitives 15 to 18 of MODE 0), then `RESULT <- v`. -/
def readBusList (p : Params) : List Action :=
  [.drv .oe .low, .waitMs p.tOeMs, .bsmp, .drv .oe .high, .resultFromSample]

/-- The primitive list of `PP_RDFUSE` (R145); 0x04 is the command "enable fuse-read mode" (R87). -/
def ppReadList (m : Mode) (p : Params) (f : FuseSel) : List Action :=
  sendCommandList m p 0x04#8 ++ .bdir .input :: (selectList m f ++ readBusList p)

/-- `PP_SENDCMD byte` (R141). -/
def execPpSendcmd (b : Byte) (s : State) : Outcome :=
  operate (.ppSendcmd b)
    (planned [notEnteredCheck s, parallelCheck s] (sendCommandList s.mode s.cfg b)) s

/-- `PP_LOADDATA byte` (R142). -/
def execPpLoaddata (b : Byte) (s : State) : Outcome :=
  operate (.ppLoaddata b)
    (planned [notEnteredCheck s, parallelCheck s] (loadFuseDataList s.mode s.cfg b)) s

/-- `PP_WRFUSE sel, value` (R144). -/
def execPpWrfuse (sel : BitVec 2) (v : Byte) (s : State) : Outcome :=
  operate (.ppWrfuse sel v)
    (planned [notEnteredCheck s, parallelCheck s, selectorCheck s sel]
      (withFuse s.cfg.extEn sel fun f => ppWriteList s.mode s.cfg f v)) s

/-- `PP_RDFUSE sel` (R145). -/
def execPpRdfuse (sel : BitVec 2) (s : State) : Outcome :=
  operate (.ppRdfuse sel)
    (planned [notEnteredCheck s, parallelCheck s, selectorCheck s sel]
      (withFuse s.cfg.extEn sel fun f => ppReadList s.mode s.cfg f)) s

end Sys2Proof.Machine
end

