-- ==== Sys2Proof/Machine/Hvsp.lean ====
section
/-!
DEFINITION. The HVSP (serial) operations (spec/43_hvsp.md). They run only in MODE 2, where the roles SCI, SDI, SII
and SDO are resolved by `rho` (R25).
-/

namespace Sys2Proof.Machine

/-- `DRV` on a serial role. -/
def drvSerial (r : Role) (v : Level) : List Action := drvRole .hvsp r v

/-- Helper `PULSE`, one clock pulse (R164). -/
def pulseList (p : Params) : List Action :=
  .waitUs p.tSciSetupUs :: (drvSerial .sci .high ++ .waitUs p.tSciHighUs :: drvSerial .sci .low)

/-- One bit-time up to its sample: SDI, then SII, then the pulse (R88, R160). -/
def bitTimeList (p : Params) (sdi sii : Level) : List Action :=
  drvSerial .sdi sdi ++ drvSerial .sii sii ++ pulseList p

/-- `v <- SMP(SDO); RESP[k] <- v` (R160). -/
def sampleInto (k : Nat) : List Action :=
  onRole .hvsp .sdo (fun l => .smp l) ++ [.respBit k]

/-- Bit-time k + 1 of a frame: bit 7 - k of both bytes, SDI before SII, a pulse, and for k = 0 to 6 a sample into
bit 6 - k (R160 step 3; 90_conflicts C7). -/
def payloadBit (p : Params) (d i : Byte) (k : Nat) : List Action :=
  bitTimeList p (bitLevel d (7 - k)) (bitLevel i (7 - k)) ++
  (if k ≤ 6 then sampleInto (6 - k) else [])

/-- A trailing zero bit on both lines (R160 step 4). -/
def trailingBit (p : Params) : List Action := bitTimeList p .low .low

/-- Helper `FRAME(data, instr)`: 75 primitives, eleven clock pulses (R88, R160). -/
def frameList (p : Params) (d i : Byte) : List Action :=
  .clearResp ::
    (drvSerial .sci .low ++ bitTimeList p .low .low ++ sampleInto 7 ++
      (List.range 8).flatMap (payloadBit p d i) ++
      trailingBit p ++ trailingBit p)

/-- A frame of a constant pair of `SPTAB` (R91). -/
def pairFrame (p : Params) (x : FramePair) : List Action := frameList p x.data x.instr

/-- The primitive list of `SP_RDFUSE` (R162): three frames; the third one's accumulator is returned. -/
def spReadList (p : Params) (f : FuseSel) : List Action :=
  let row := spRead p.spTab f
  pairFrame p row.first ++ pairFrame p row.second ++ pairFrame p row.third ++ [.resultFromResp]

/-- The primitive list of `SP_WRFUSE` (R163): four frames, the second carrying the fuse value, then the poll. -/
def spWriteList (p : Params) (f : FuseSel) (v : Byte) : List Action :=
  let row := spWrite p.spTab f
  pairFrame p row.first ++ frameList p v row.secondInstr ++ pairFrame p row.third ++ pairFrame p row.fourth ++
  onRole .hvsp .sdo (fun l => .poll l)

/-- `SP_XFER data, instr` (R160). -/
def execSpXfer (d i : Byte) (s : State) : Outcome :=
  operate (.spXfer d i)
    (planned [notEnteredCheck s, serialCheck s] (frameList s.cfg d i ++ [.resultFromResp])) s

/-- `SP_WRFUSE sel, value` (R163). -/
def execSpWrfuse (sel : BitVec 2) (v : Byte) (s : State) : Outcome :=
  operate (.spWrfuse sel v)
    (planned [notEnteredCheck s, serialCheck s, selectorCheck s sel]
      (withFuse s.cfg.extEn sel fun f => spWriteList s.cfg f v)) s

/-- `SP_RDFUSE sel` (R162). -/
def execSpRdfuse (sel : BitVec 2) (s : State) : Outcome :=
  operate (.spRdfuse sel)
    (planned [notEnteredCheck s, serialCheck s, selectorCheck s sel]
      (withFuse s.cfg.extEn sel fun f => spReadList s.cfg f)) s

end Sys2Proof.Machine
end

