-- ==== Sys2Proof/Machine/Session.lean ====
section
/-!
DEFINITION. Mode selection, enter and exit (spec/41_session.md).
-/

namespace Sys2Proof.Machine

/-- `SETMODE mode` (R130): no primitive. -/
def execSetmode (m : Mode) (s : State) : Outcome :=
  operate (.setmode m) (planned [modeOperandCheck m, modeLockedCheck s] [.setMode m]) s

/-- The primitive list of `ENTER` in a parallel mode (R131): the bus parked, the eight signal lines made Outputs
held Low (direction first), RDY Input; then the supply, the 12 V, and the release of OE and WR. -/
def enterParallelList (p : Params) : List Action :=
  [.bdir .input,
   .dir .oe .output, .drv .oe .low,
   .dir .wr .output, .drv .wr .low,
   .dir .xtal1 .output, .drv .xtal1 .low,
   .dir .bs1 .output, .drv .bs1 .low,
   .dir .bs2 .output, .drv .bs2 .low,
   .dir .xa0 .output, .drv .xa0 .low,
   .dir .xa1 .output, .drv .xa1 .low,
   .dir .pagel .output, .drv .pagel .low,
   .dir .rdy .input,
   .drv .vcc (vccOnLevel p), .waitUs tVccUs,
   .drv .rst (rstOnLevel p), .waitUs tRstUs,
   .drv .oe .high,
   .drv .wr .high]

/-- The primitive list of `ENTER` in serial mode (R132). SCI, SII, SDI and SDO are named by their lines BS1, XA0,
XA1 and RDY, as the rule does. -/
def enterSerialList (p : Params) : List Action :=
  [.bdir .input,
   .dir .oe .output, .drv .oe .low,
   .dir .wr .output, .drv .wr .low,
   .dir .bs1 .output, .drv .bs1 .low,
   .dir .xa0 .output, .drv .xa0 .low,
   .dir .xa1 .output, .drv .xa1 .low,
   .drv .vcc (vccOnLevel p), .waitUs tVccUs,
   .dir .rdy .output, .drv .rdy .low,
   .drv .rst (rstOnLevel p), .waitUs tSdoUs,
   .dir .rdy .input, .waitUs tRstUs,
   .drv .oe .high,
   .drv .wr .high]

/-- The list of `ENTER` for the selected mode; Unselected has none and is refused (R131, R132). -/
def enterList (m : Mode) (p : Params) : List Action :=
  match m with
  | .atmega => enterParallelList p
  | .tiny2313 => enterParallelList p
  | .hvsp => enterSerialList p
  | .unselected => []

/-- `ENTER` (R131, R132): the list, then `ENTERED <- 1`. -/
def execEnter (s : State) : Outcome :=
  operate .enter
    (planned [alreadyEnteredCheck s, modeUnselectedCheck s] (enterList s.mode s.cfg ++ [.setEntered true])) s

/-- `EXIT` (R133): `ENTERED <- 0` at the start, then the exit list. -/
def execExit (s : State) : Outcome :=
  operate .exit (planned [notEnteredCheck s] (.setEntered false :: exitList s.cfg s.dir)) s

end Sys2Proof.Machine
end

