-- ==== Sys2Proof/Machine/Dispatch.lean ====
section
/-!
DEFINITION. One operation: the constructor of Instr chooses the meaning.
-/

namespace Sys2Proof.Machine

def exec (i : Instr) (s : State) : Host.Outcome State Fault Refusal :=
  match i with
  | .setmode m => Sys2Proof.Machine.execSetmode m s
  | .enter => Sys2Proof.Machine.execEnter s
  | .exit => Sys2Proof.Machine.execExit s
  | .setdir l d => Sys2Proof.Machine.execSetdir l d s
  | .wrline l v => Sys2Proof.Machine.execWrline l v s
  | .rdline l => Sys2Proof.Machine.execRdline l s
  | .strobe l h => Sys2Proof.Machine.execStrobe l h s
  | .delayms n => Sys2Proof.Machine.execDelayms n s
  | .delayus n => Sys2Proof.Machine.execDelayus n s
  | .setbusdir d => Sys2Proof.Machine.execSetbusdir d s
  | .wrbus b => Sys2Proof.Machine.execWrbus b s
  | .rdbus => Sys2Proof.Machine.execRdbus s
  | .ppSendcmd b => Sys2Proof.Machine.execPpSendcmd b s
  | .ppLoaddata b => Sys2Proof.Machine.execPpLoaddata b s
  | .ppWrfuse sel v => Sys2Proof.Machine.execPpWrfuse sel v s
  | .ppRdfuse sel => Sys2Proof.Machine.execPpRdfuse sel s
  | .spXfer d x => Sys2Proof.Machine.execSpXfer d x s
  | .spWrfuse sel v => Sys2Proof.Machine.execSpWrfuse sel v s
  | .spRdfuse sel => Sys2Proof.Machine.execSpRdfuse sel s

end Sys2Proof.Machine
end

