-- ==== Sys2Proof/Machine/Port.lean ====
section
/-!
DEFINITION. The host port and the reset input (R38, R210, R211): what the engine does with the next thing the host
puts on its inputs.
-/

namespace Sys2Proof.Machine

/-- A command word on the command port of a ready engine: a legal word's operation, or the refusal of an illegal
one (R96, R97). -/
def runWord (w : CmdWord) (s : State) : Outcome :=
  match decode w with
  | some i => exec i s
  | none => illegalWord w s

/-- A command word with the reset input asserted after `k` primitives of its operation (R211). -/
def runWordThenReset (w : CmdWord) (k : Nat) (s : State) : Outcome :=
  match runWord w s with
  | .next done => .next (abandon k s done)
  | .fault e => .fault e
  | .refused e => .refused e

/-- The next host input taken. With nothing on its inputs the engine waits (R210). The reset input acts in every
state (R210). A command word is accepted only while `cmd_ready` is 1: a busy engine accepts nothing, and the
word stays on the port (R38; no step leaves the engine busy: DESIGN CHOICE, safe, log entry 5). -/
def takeInput (s : State) : Outcome :=
  match s.hostIn with
  | [] => .next s
  | .reset :: rest => .next (resetEngine { s with hostIn := rest })
  | .command w :: rest =>
    if cmdReady s then runWord w { s with hostIn := rest } else .next s
  | .commandThenReset w k :: rest =>
    if cmdReady s then runWordThenReset w k { s with hostIn := rest } else .next s

/-- The engine with a command word next on its command port, and ready to accept it (DESIGN CHOICE, safe: log
entry 1). -/
def presentWord (w : CmdWord) (s : State) : State :=
  { s with hostIn := .command w :: s.hostIn, busy := false }

end Sys2Proof.Machine
end

