-- ==== Sys2Proof/Machine/Step.lean ====
section
/-!
DEFINITION. One step of the machine, and how a word of the opcode table is put where the step fetches.
-/

namespace Sys2Proof.Machine

/-- One step: the next input of the host, run to completion (R4, R38, R71). -/
def step (s : State) : Host.Outcome State Fault Refusal := takeInput s

/-- `s` with the instruction whose bits are `w` as the next word on the command port. -/
def State.withFetchWord (s : State) (nbits w : Nat) : State := presentWord (tableWord nbits w) s

end Sys2Proof.Machine
end

