-- ==== Sys2Proof/Safety.lean ====
section
/-!
DEFINITION. The terms in which statements about the engine are made: line conditions (R42, R134), what a refusal
may depend on (R182), what an observer reads off a trace (R30, R62, R88), and the invariants of a run.
-/

namespace Sys2Proof.Safety

open Sys2Proof.Machine

/-! ### Line conditions -/

/-- `IdleLines` (R42). -/
abbrev IdleLines (s : State) : Prop :=
  s.dir.vcc = .output ∧ s.dir.rst = .output ∧
  s.out.vcc = vccOffLevel s.cfg ∧ s.out.rst = rstOffLevel s.cfg ∧
  (∀ l ∈ [Line.oe, .wr, .xtal1, .rdy, .bs1, .bs2, .xa0, .xa1, .pagel, .start],
    getCell s.dir l = .input ∧ getCell s.out l = .low) ∧
  s.busDir = .input

/-- The proviso of R134 on the state an `EXIT` or abort starts from: VCC, RST and START have the directions, and
START the latch, that reset gives them, and no line of ids 2 to 10 is Input with a High latch. -/
abbrev ExitProviso (s : State) : Prop :=
  s.dir.vcc = .output ∧ s.dir.rst = .output ∧
  s.dir.start = .input ∧ s.out.start = .low ∧
  (∀ l ∈ exitLines, getCell s.dir l = .input → getCell s.out l = .low)

/-- The signal lines a parallel session holds as Outputs (R131). -/
def parallelOutputs : List Line := [.oe, .wr, .xtal1, .bs1, .bs2, .xa0, .xa1, .pagel]

/-- The signal lines a serial session holds as Outputs (R132). -/
def serialOutputs : List Line := [.oe, .wr, .bs1, .xa0, .xa1]

/-- The line discipline the engine's own operations keep (R134, R146, R165, R222): the proviso of `EXIT`, RDY an
Input whose latch is Low (DEDUCED, safe: log entry 15), the signal lines of the session's mode Outputs while
`ENTERED` = 1, OE then High between operations, and the bus parked between operations. -/
abbrev LineDiscipline (s : State) : Prop :=
  ExitProviso s ∧ s.dir.rdy = .input ∧ s.out.rdy = .low ∧ s.busDir = .input ∧
  (s.entered = true → s.out.oe = .high ∧
    (if s.mode = .hvsp then ∀ l ∈ serialOutputs, getCell s.dir l = .output
      else ∀ l ∈ parallelOutputs, getCell s.dir l = .output))

/-! ### Lifecycle -/

/-- What holds between operations: the engine is not busy and `upc` is 0 (R26), and a session has a mode (the last
sentence of R182). -/
abbrev BetweenOperations (s : State) : Prop :=
  s.busy = false ∧ s.upc = 0#9 ∧ (s.entered = true → s.mode ≠ .unselected)

/-- The four HVPP operations (42_hvpp.md). -/
def isHvpp : Instr → Bool
  | .ppSendcmd _ => true
  | .ppLoaddata _ => true
  | .ppWrfuse _ _ => true
  | .ppRdfuse _ => true
  | _ => false

/-- The three HVSP operations (43_hvsp.md). -/
def isHvsp : Instr → Bool
  | .spXfer _ _ => true
  | .spWrfuse _ _ => true
  | .spRdfuse _ => true
  | _ => false

/-- The two operations that contain `POLL` (R180, R186). -/
def hasPoll : Instr → Bool
  | .ppWrfuse _ _ => true
  | .spWrfuse _ _ => true
  | _ => false

/-- The operations that return a value (R24). -/
def returnsValue : Instr → Bool
  | .rdline _ => true
  | .rdbus => true
  | .ppRdfuse _ => true
  | .spXfer _ _ => true
  | .spRdfuse _ => true
  | _ => false

/-- The nine operations of 40_line_primitives.md. -/
def isLineOperation : Instr → Bool
  | .setdir _ _ => true
  | .wrline _ _ => true
  | .rdline _ => true
  | .strobe _ _ => true
  | .delayms _ => true
  | .delayus _ => true
  | .setbusdir _ => true
  | .wrbus _ => true
  | .rdbus => true
  | _ => false

/-- The events of the operation that led from `s` to `t`. -/
def eventsOf (s t : State) : List Event := t.trace.drop s.trace.length

/-- The operations by which a host can move a line or the bus behind the engine's back (R226). -/
def movesLines : Instr → Bool
  | .setdir _ _ => true
  | .wrline _ _ => true
  | .strobe _ _ => true
  | .setbusdir _ => true
  | .wrbus _ => true
  | _ => false

/-- A host input of a well-behaved host (R226): a command word that does not move a line behind the engine's
back, or the reset input, at any time. -/
def WellBehaved : HostInput → Bool
  | .command w => (decode w).all (fun i => !movesLines i)
  | .reset => true
  | .commandThenReset _ _ => true

/-- A run with a well-behaved host: the line discipline holds, and the host's coming inputs are well-behaved. -/
abbrev DisciplinedRun (s : State) : Prop :=
  BetweenOperations s ∧ LineDiscipline s ∧ ∀ h ∈ s.hostIn, WellBehaved h = true

/-! ### Refusals (R182) -/

/-- The lifecycle column of R182. -/
def lifecycleRefusal (i : Instr) (s : State) : Option ErrCode :=
  match i with
  | .setmode _ => if s.entered = true then some .modeLocked else none
  | .enter => if s.entered = true then some .alreadyEntered else none
  | .exit => if s.entered = false then some .notEntered else none
  | .ppSendcmd _ => if s.entered = false then some .notEntered else none
  | .ppLoaddata _ => if s.entered = false then some .notEntered else none
  | .ppWrfuse _ _ => if s.entered = false then some .notEntered else none
  | .ppRdfuse _ => if s.entered = false then some .notEntered else none
  | .spXfer _ _ => if s.entered = false then some .notEntered else none
  | .spWrfuse _ _ => if s.entered = false then some .notEntered else none
  | .spRdfuse _ => if s.entered = false then some .notEntered else none
  | _ => none

/-- The mode column of R182, on the number of MODE. -/
def modeRefusal (i : Instr) (s : State) : Option ErrCode :=
  match i with
  | .enter => if s.mode.code = 3#8 then some .modeUnselected else none
  | .ppSendcmd _ => if s.mode.code = 2#8 then some .modeMismatch else none
  | .ppLoaddata _ => if s.mode.code = 2#8 then some .modeMismatch else none
  | .ppWrfuse _ _ => if s.mode.code = 2#8 then some .modeMismatch else none
  | .ppRdfuse _ => if s.mode.code = 2#8 then some .modeMismatch else none
  | .spXfer _ _ => if s.mode.code ≠ 2#8 then some .modeMismatch else none
  | .spWrfuse _ _ => if s.mode.code ≠ 2#8 then some .modeMismatch else none
  | .spRdfuse _ => if s.mode.code ≠ 2#8 then some .modeMismatch else none
  | _ => none

/-- A selector operand R182 refuses: 3, or 2 without `EXT_EN`. -/
abbrev BadSelectorOperand (sel : BitVec 2) (s : State) : Prop :=
  sel = 3#2 ∨ (sel = 2#2 ∧ s.cfg.extEn = false)

/-- The selector column of R182. -/
def selectorRefusal (i : Instr) (s : State) : Option ErrCode :=
  match i with
  | .ppWrfuse sel _ => if BadSelectorOperand sel s then some .badSelector else none
  | .ppRdfuse sel => if BadSelectorOperand sel s then some .badSelector else none
  | .spWrfuse sel _ => if BadSelectorOperand sel s then some .badSelector else none
  | .spRdfuse sel => if BadSelectorOperand sel s then some .badSelector else none
  | _ => none

/-- The code R181 and R182 give a well-formed operation before its first primitive: lifecycle, then mode, then
selector. -/
def refusalOf (i : Instr) (s : State) : Option ErrCode :=
  (lifecycleRefusal i s).or ((modeRefusal i s).or (selectorRefusal i s))

/-- What instruction `i` leaves, apart from the operation's own effect, when it completes with code `e` and
`RESULT` = `r`: the word latched, `ERR`, the engine ready again, one response (R24, R26, R38, R43). For a
refusal this is all (R183), with `r` the `RESULT` it found. -/
def completed (i : Instr) (e : ErrCode) (r : Byte) (s : State) : State :=
  { s with
    opc := i.opcode.code, opa := i.aOperand, opb := i.bOperand
    result := r, err := e, busy := false, upc := 0#9
    responses := s.responses ++ [⟨e, r⟩] }

/-! ### Traces the rules give, event by event -/

/-- The twelve (MODE 0) or eleven (MODE 1) events of `LOAD` (R140). -/
def loadTrace (m : Mode) (p : Params) (xa1 xa0 : Level) (b : Byte) : List Event :=
  if m = .atmega then
    [.drv .xa1 xa1, .drv .xa0 xa0, .drv .bs1 .low, .drv .bs2 .low, .bdir .output, .bdrv b, .waitMs p.tBusSetupMs,
      .drv .xtal1 .high, .waitMs p.tXtalHoldMs, .drv .xtal1 .low, .waitMs p.tBusHoldMs, .bdir .input]
  else
    [.drv .xa1 xa1, .drv .xa0 xa0, .drv .bs1 .low, .bdir .output, .bdrv b, .waitMs p.tBusSetupMs,
      .drv .xtal1 .high, .waitMs p.tXtalHoldMs, .drv .xtal1 .low, .waitMs p.tBusHoldMs, .bdir .input]

/-- The line of role BS2 in a parallel mode: BS2 in MODE 0, XA1 in MODE 1 (R25). -/
def bs2Line (m : Mode) : Line := if m = .atmega then .bs2 else .xa1

/-- The two events of `SELECT` (R143, R89). -/
def selectTrace (m : Mode) : FuseSel → List Event
  | .low => [.drv .bs1 .low, .drv (bs2Line m) .low]
  | .high => [.drv .bs1 .high, .drv (bs2Line m) .high]
  | .extended => [.drv .bs1 .low, .drv (bs2Line m) .high]

/-- `OUT` after a `LOAD` (R140, R141, R142). -/
def loadOut (m : Mode) (xa1 xa0 : Level) (out : PerLine Level) : PerLine Level :=
  if m = .atmega then { out with xa1 := xa1, xa0 := xa0, bs1 := .low, bs2 := .low, xtal1 := .low }
  else { out with xa1 := xa1, xa0 := xa0, bs1 := .low, xtal1 := .low }

/-- `OUT` after the select roles BS1 and BS2 are driven to two levels (R143). -/
def selectRolesOut (m : Mode) (bs1 bs2 : Level) (out : PerLine Level) : PerLine Level :=
  if m = .atmega then { out with bs1 := bs1, bs2 := bs2 } else { out with bs1 := bs1, xa1 := bs2 }

/-- `OUT` after `SELECT` (R143, R89). -/
def selectOut (m : Mode) (f : FuseSel) (out : PerLine Level) : PerLine Level :=
  match f with
  | .low => selectRolesOut m .low .low out
  | .high => selectRolesOut m .high .high out
  | .extended => selectRolesOut m .low .high out

/-- The events of `DESELECT` (R143). -/
def deselectTrace (m : Mode) : List Event := [.drv .bs1 .low, .drv (bs2Line m) .low]

/-- The burn pulse (R144, primitives 26 to 29 of MODE 0). -/
def pulseWrTrace (p : Params) : List Event :=
  [.waitMs p.tSelSetupMs, .drv .wr .low, .waitMs p.tWrLowMs, .drv .wr .high]

/-- The events of `PP_WRFUSE` before its busy-wait (R144). -/
def burnTrace (m : Mode) (p : Params) (f : FuseSel) (v : Byte) : List Event :=
  loadTrace m p .high .low 0x40#8 ++ loadTrace m p .low .high v ++ selectTrace m f ++ pulseWrTrace p

/-- `OUT` when `PP_WRFUSE` reaches its busy-wait (R144). -/
def burnOut (m : Mode) (f : FuseSel) (out : PerLine Level) : PerLine Level :=
  { selectOut m f (loadOut m .low .high out) with wr := .high }

/-- The events of a busy-wait that sees `m` Low samples and then a High one (R186). -/
def pollReadyTrace (p : Params) (m : Nat) : List Event :=
  (List.replicate m [Event.smp .rdy .low, .waitUs p.tPollUs]).flatten ++ [.smp .rdy .high]

/-- The events of a busy-wait that times out: `POLL_LIMIT` Low samples with a wait between any two (R186). -/
def pollTimeoutTrace (p : Params) : List Event :=
  (List.replicate p.pollLimitPred [Event.smp .rdy .low, .waitUs p.tPollUs]).flatten ++ [.smp .rdy .low]

/-- The events of the exit list, from the directions it starts with (R133). -/
def exitTrace (p : Params) (dir : PerLine Direction) : List Event :=
  let release (l : Line) : List Event :=
    if getCell dir l = .output then [.drv l .low, .dir l .input] else []
  List.flatten
    [[.drv .rst p.rstOn.flip, .bdir .input],
      release .oe, release .wr, release .xtal1, release .rdy, release .bs1, release .bs2,
      release .xa0, release .xa1, release .pagel,
      [.drv .vcc p.vccOn.flip]]

/-- `DIR` after the exit list (R133): ids 2 to 10 Input, the others kept. -/
def exitDir (dir : PerLine Direction) : PerLine Direction :=
  { dir with
    oe := .input, wr := .input, xtal1 := .input, rdy := .input, bs1 := .input
    bs2 := .input, xa0 := .input, xa1 := .input, pagel := .input }

/-- `OUT` after the exit list (R133): the enables deasserted, each line of ids 2 to 10 that was Output Low, the
other latches kept. -/
def exitOut (p : Params) (dir : PerLine Direction) (out : PerLine Level) : PerLine Level :=
  let low (l : Line) : Level := if getCell dir l = .output then .low else getCell out l
  { out with
    vcc := p.vccOn.flip, rst := p.rstOn.flip
    oe := low .oe, wr := low .wr, xtal1 := low .xtal1, rdy := low .rdy, bs1 := low .bs1
    bs2 := low .bs2, xa0 := low .xa0, xa1 := low .xa1, pagel := low .pagel }

/-- The eight bits of a byte, most significant first (R62). -/
def msbFirst (b : Byte) : List Level :=
  [7, 6, 5, 4, 3, 2, 1, 0].map (fun k => Level.ofBit (b.getLsbD k))

/-- The eleven bits a byte makes on SDI or SII, first bit-time first: `0 dddddddd 00` (R88). -/
def serialStream (b : Byte) : List Level := .low :: (msbFirst b ++ [.low, .low])

/-- The byte of the levels sampled in a frame, first sample most significant (R62, R88). -/
def responseByte (vs : List Level) : Byte :=
  vs.foldl (fun acc v => (acc <<< 1) ||| v.code) 0x00#8

/-- One bit-time of a frame: SDI, SII, one clock pulse, and the sample if one is taken (R88, R164). -/
def bitTimeTrace (p : Params) (sdi sii : Level) (sample : Option Level) : List Event :=
  .drv .xa1 sdi :: .drv .xa0 sii :: .waitUs p.tSciSetupUs :: .drv .bs1 .high :: .waitUs p.tSciHighUs ::
    .drv .bs1 .low ::
    match sample with
    | some v => [.smp .rdy v]
    | none => []

/-- The eleven bit-times, from the two streams and the samples. -/
def bitTimesTrace (p : Params) : List Level → List Level → List (Option Level) → List Event
  | sdi :: sdis, sii :: siis, v :: vs => bitTimeTrace p sdi sii v ++ bitTimesTrace p sdis siis vs
  | _, _, _ => []

/-- The events of a frame whose eight samples are `vs` (R88, R160). -/
def frameTrace (p : Params) (d i : Byte) (vs : List Level) : List Event :=
  .drv .bs1 .low :: bitTimesTrace p (serialStream d) (serialStream i) (vs.map some ++ [none, none, none])

/-! ### What an observer reads off a trace -/

/-- How often the events drive line `l` from Low to High, `now` being its level before them. -/
def risingEdges (l : Line) : Level → List Event → Nat
  | _, [] => 0
  | now, .drv m v :: rest =>
    if m = l then (if now = .low ∧ v = .high then 1 else 0) + risingEdges l v rest else risingEdges l now rest
  | now, _ :: rest => risingEdges l now rest

/-- How often the events drive line `l` from High to Low. -/
def fallingEdges (l : Line) : Level → List Event → Nat
  | _, [] => 0
  | now, .drv m v :: rest =>
    if m = l then (if now = .high ∧ v = .low then 1 else 0) + fallingEdges l v rest else fallingEdges l now rest
  | now, _ :: rest => fallingEdges l now rest

/-- The levels line `data` has at the rising edges of line `clk`, given both levels before the events. -/
def levelsAtRises (clk data : Line) : Level → Level → List Event → List Level
  | _, _, [] => []
  | c, x, .drv m v :: rest =>
    if m = clk then
      if c = .low ∧ v = .high then x :: levelsAtRises clk data v x rest else levelsAtRises clk data v x rest
    else if m = data then levelsAtRises clk data c v rest
    else levelsAtRises clk data c x rest
  | c, x, _ :: rest => levelsAtRises clk data c x rest

/-- The levels sampled on line `l`, in order. -/
def samplesOf (l : Line) : List Event → List Level
  | [] => []
  | .smp m v :: rest => if m = l then v :: samplesOf l rest else samplesOf l rest
  | _ :: rest => samplesOf l rest

/-- A bus event (R61, R165 (d)). -/
def isBusEvent : Event → Bool
  | .bdir _ => true
  | .bdrv _ => true
  | .bsmp _ => true
  | _ => false

/-- A drive of line `l`. -/
def isDriveOf (l : Line) : Event → Bool
  | .drv m _ => decide (m = l)
  | _ => false

/-- Every `DRV` of the events is to a line that is Output when it happens (R222), `dir` being the directions
before them. -/
def drivesOutputsOnly : PerLine Direction → List Event → Bool
  | _, [] => true
  | dir, .drv l _ :: rest => decide (getCell dir l = .output) && drivesOutputsOnly dir rest
  | dir, .dir l d :: rest => drivesOutputsOnly (setCell dir l d) rest
  | dir, _ :: rest => drivesOutputsOnly dir rest

/-- Every `SMP` of the events is of a line that is Input when it happens (R222). -/
def samplesInputsOnly : PerLine Direction → List Event → Bool
  | _, [] => true
  | dir, .smp l _ :: rest => decide (getCell dir l = .input) && samplesInputsOnly dir rest
  | dir, .dir l d :: rest => samplesInputsOnly (setCell dir l d) rest
  | dir, _ :: rest => samplesInputsOnly dir rest

/-- While OE is Low the bus is Input, at every moment of the events (R146 (b), (c); R221), given the bus direction
and OE's level before them. -/
def neverFightsForBus : Direction → Level → List Event → Bool
  | d, oe, [] => decide (oe = .low → d = .input)
  | d, oe, .bdir d' :: rest => decide (oe = .low → d = .input) && neverFightsForBus d' oe rest
  | d, oe, .drv .oe v :: rest => decide (oe = .low → d = .input) && neverFightsForBus d v rest
  | d, oe, _ :: rest => decide (oe = .low → d = .input) && neverFightsForBus d oe rest

/-! ### A trace spelled as host operations (R119) -/

/-- The operation of spec/40_line_primitives.md that performs one event: `SETDIR` for `DIR`, `WRLINE` for `DRV`,
`RDLINE` for `SMP`, `SETBUSDIR`, `WRBUS` and `RDBUS` for the bus, `DELAYUS` and `DELAYMS` for a wait; none for a
wait longer than their 16-bit count. -/
def hostSpelling? : Event → Option Instr
  | .dir l d => some (.setdir l d)
  | .drv l v => some (.wrline l v)
  | .smp l _ => some (.rdline l)
  | .bdir d => some (.setbusdir d)
  | .bdrv b => some (.wrbus b)
  | .bsmp _ => some .rdbus
  | .waitUs n => if n < 65536 then some (.delayus (BitVec.ofNat 16 n)) else none
  | .waitMs n => if n < 65536 then some (.delayms (BitVec.ofNat 16 n)) else none

/-- Every configured wait is one `DELAYMS` or `DELAYUS` can carry. -/
abbrev WaitsFit (p : Params) : Prop :=
  ∀ n ∈ [p.tBusSetupMs, p.tXtalHoldMs, p.tBusHoldMs, p.tSelSetupMs, p.tWrLowMs, p.tOeMs,
    p.tSciSetupUs, p.tSciHighUs, p.tPollUs], n < 65536

/-- The operations run one after another, each on the state the one before left. -/
def runInstrs : List Instr → State → Outcome
  | [], s => .next s
  | i :: rest, s =>
    match exec i s with
    | .next t => runInstrs rest t
    | .fault e => .fault e
    | .refused e => .refused e

end Sys2Proof.Safety
end

