-- ==== Sys2Proof/Certificates/Slice0/Obligations.lean ====
section
/-!
DEFINITION. The statements about the model, one def Obligations.<Name> : Prop each, listed in OBLIGATIONS.json.
`completed i e r s` (Sys2Proof/Safety.lean) is `s` with instruction i's word latched, ERR = e, RESULT = r, the
engine ready, `upc` 0, and the response (e, r) presented; a statement that gives the next state as
`{ completed i e r s with … }` says that everything not named there is unchanged.
-/

open Sys2Proof Sys2Proof.Machine Sys2Proof.Safety

/-! ### Encoding -/

/-- R80, R81, R82, R98: decoding the encoded word of any well-formed instruction gives it back, with every operand
at every value its encoding admits. -/
def Obligations.DecodeOfEncodeIsTheInstruction : Prop :=
  ∀ i : Instr, i.wellFormed = true → decode (encode i) = some i

/-- R80, R96: a word that decodes is the word of the instruction it decodes to, so no bit of it is dropped. -/
def Obligations.EncodeOfDecodeIsTheWord : Prop :=
  ∀ (w : CmdWord) (i : Instr), decode w = some i → encode i = w ∧ i.wellFormed = true

/-- R81, R96: against the mask and match columns of the opcode map, a word is rejected exactly when its opcode is
none of the nineteen (a), a bit its row's mask requires is wrong (b), its line operand is 12 to 15 (c), or it is
`SETMODE 3` (d). -/
def Obligations.IllegalWordsAreThoseOfTheOpcodeMap : Prop :=
  ∀ w : CmdWord, decode w = none ↔
    (∀ o : Opcode, o.code ≠ opField w) ∨
    (∃ o : Opcode, o.code = opField w ∧ w &&& o.mask ≠ o.pattern) ∨
    ((opField w = 0x10#8 ∨ opField w = 0x11#8 ∨ opField w = 0x12#8 ∨ opField w = 0x13#8) ∧
      (aField w = 12#8 ∨ aField w = 13#8 ∨ aField w = 14#8 ∨ aField w = 15#8)) ∨
    (opField w = 0x01#8 ∧ bField w = 3#8)

/-- R81: the row a legal word selects by "w & mask = match" is the row of its instruction, and no other. -/
def Obligations.LegalWordSelectsItsOwnRowOnly : Prop :=
  ∀ (w : CmdWord) (i : Instr), decode w = some i → ∀ o : Opcode, o.selects w = true ↔ o = i.opcode

/-- Vectors V1 and V2: words written out from the spec's encoding decode to the instruction they stand for, or are
rejected. -/
def Obligations.WrittenOutWordsDecode : Prop :=
  decode 0x010001#24 = some (.setmode .tiny2313) ∧
  decode 0x100601#24 = some (.setdir .bs1 .output) ∧
  decode 0x110A01#24 = some (.wrline .pagel .high) ∧
  decode 0x1403E8#24 = some (.delayms 1000#16) ∧
  decode 0x2202FF#24 = some (.ppWrfuse 2#2 0xFF#8) ∧
  decode 0x303CA5#24 = some (.spXfer 0xA5#8 0x3C#8) ∧
  decode 0x000000#24 = none ∧
  decode 0x010003#24 = none ∧
  decode 0x100C01#24 = none

/-! ### The step, the ports and reset -/

/-- R38, R71: when the engine is ready and the next thing on its inputs (a queue, the model's choice, log entry 4) is a word that decodes to i, the step takes
the word off the port and is exec of i. -/
def Obligations.StepRunsTheDecodedInstruction : Prop :=
  ∀ (s : State) (w : CmdWord) (rest : List HostInput) (i : Instr),
    s.busy = false → s.hostIn = .command w :: rest → decode w = some i →
    step s = exec i { s with hostIn := rest }

/-- The fetch placement (the model's own, log entry 1): after `withFetchWord` with a table word that decodes to i, the very next step runs i. -/
def Obligations.StepAfterWithFetchWordRunsTheWord : Prop :=
  ∀ (s : State) (nbits w : Nat) (i : Instr), decodeTableWord nbits w = some i →
    step (s.withFetchWord nbits w) = exec i { s with busy := false }

/-- R184: `IllegalCommand` is the refusal (R183) of exactly the illegal words, in every lifecycle state and mode: an
illegal word completes with code 2 and nothing else changed but the latched word, and a legal word's operation
never reports it. -/
def Obligations.IllegalCommandIsForIllegalWordsOnly : Prop :=
  (∀ (s : State) (w : CmdWord) (rest : List HostInput),
    s.busy = false → s.hostIn = .command w :: rest → decode w = none →
    step s = .next { s with
      hostIn := rest, opc := opField w, opa := aField w, opb := bField w
      err := .illegalCommand, busy := false, upc := 0#9
      responses := s.responses ++ [⟨.illegalCommand, s.result⟩] }) ∧
  (∀ (i : Instr) (s t : State), i.wellFormed = true → exec i s = .next t → t.err ≠ .illegalCommand)

/-- R38, R210: with nothing on its inputs the engine waits, and while `BUSY` = 1 no command is accepted, be it one with
a reset to come during its operation. That the step of a busy engine changes nothing at all, in all three clauses, is
the model's choice (log entry 5), not R38's: between steps `BUSY` = 1 is a state no run reaches. -/
def Obligations.EngineWaitsAndHoldsOffCommands : Prop :=
  (∀ s : State, s.hostIn = [] → step s = .next s) ∧
  (∀ (s : State) (w : CmdWord) (rest : List HostInput),
    s.busy = true → s.hostIn = .command w :: rest → step s = .next s) ∧
  (∀ (s : State) (w : CmdWord) (k : Nat) (rest : List HostInput),
    s.busy = true → s.hostIn = .commandThenReset w k :: rest → step s = .next s)

/-- R180, R183, R189: no state stops the machine; every step answers a next state. -/
def Obligations.EveryStepAnswersANextState : Prop :=
  ∀ s : State, ∃ t : State, step s = .next t

/-- R41: the state after reset, register by register, for every configuration; it satisfies `IdleLines`. (That
`State.reset` is this state under the default parameters is the model's choice, log entry 2.) -/
def Obligations.ResetValuesAreAsStated : Prop :=
  ∀ p : Params,
    let s := State.ofParams p
    s.mode.code = 3#8 ∧ s.entered = false ∧ s.busy = false ∧ s.err.code = 0#4 ∧ s.result = 0x00#8 ∧
    s.resp = 0x00#8 ∧ s.opc = 0x00#8 ∧ s.opa = 0x00#8 ∧ s.opb = 0x00#8 ∧ s.upc = 0#9 ∧ s.pcnt = 0 ∧
    s.busDir = .input ∧ s.busOut = 0x00#8 ∧
    (∀ l : Line, getCell s.dir l = if l = .vcc ∨ l = .rst then .output else .input) ∧
    (∀ l : Line, getCell s.out l =
      if l = .vcc then vccOffLevel p else if l = .rst then rstOffLevel p else .low) ∧
    IdleLines s ∧
    State.reset = State.ofParams defaultParams

/-- R210, R212: the reset input gives every register its reset value, in every state, busy or not; nothing runs
after it; the configuration is not affected. -/
def Obligations.ResetInputGivesTheResetState : Prop :=
  ∀ (s : State) (rest : List HostInput), s.hostIn = .reset :: rest →
    step s = .next { State.ofParams s.cfg with
      hostIn := rest, pinIn := s.pinIn, busIn := s.busIn, draws := s.draws
      trace := s.trace, responses := s.responses } ∧
    IdleLines (State.ofParams s.cfg)

/-- R211: a reset asserted during an operation abandons it without a response; the registers jump to their reset
values with no event of their own, after the operation's first k events at most (that the host input says k is
the model's choice, log entry 4). -/
def Obligations.ResetDuringAnOperationAbandonsIt : Prop :=
  ∀ (s done : State) (w : CmdWord) (k : Nat) (rest : List HostInput) (i : Instr),
    s.busy = false → s.hostIn = .commandThenReset w k :: rest → decode w = some i →
    exec i { s with hostIn := rest } = .next done →
    ∃ (pins : List Level) (buses : List Byte),
      step s = .next { State.ofParams s.cfg with
        hostIn := rest, pinIn := pins, busIn := buses, draws := done.draws
        trace := s.trace ++ (eventsOf s done).take k
        responses := s.responses } ∧
      pins <:+ s.pinIn ∧ buses <:+ s.busIn

/-! ### Control-line, bus and timing operations -/

/-- R110: `SETDIR` writes `DIR[a]` and `ERR` only; `OUT[a]` is kept, and a line set to Output is driven at once with
what its latch holds. -/
def Obligations.SetdirWritesTheDirectionOnly : Prop :=
  ∀ (l : Line) (d : Direction) (s : State),
    encode (.setdir l d) = packWord 0x10#8 l.id d.code ∧
    exec (.setdir l d) s = .next { completed (.setdir l d) .ok s.result s with
      dir := setCell s.dir l d, trace := s.trace ++ [.dir l d] } ∧
    pinOut l { s with dir := setCell s.dir l d } = if d = .output then some (getCell s.out l) else none

/-- R111, R28: `WRLINE` writes `OUT[a]` and `ERR` only, on an Input line too, whose pin stays undriven. -/
def Obligations.WrlineWritesTheLatchOnly : Prop :=
  ∀ (l : Line) (v : Level) (s : State),
    encode (.wrline l v) = packWord 0x11#8 l.id v.code ∧
    exec (.wrline l v) s = .next { completed (.wrline l v) .ok s.result s with
      out := setCell s.out l v, trace := s.trace ++ [.drv l v] } ∧
    pinOut l { s with out := setCell s.out l v } = if getCell s.dir l = .output then some v else none

/-- R112, R29, R31: `RDLINE` of an Input line returns the level the environment puts there; of an Output line a free
value (the statement holds for every value of it). Nothing else changes. That the environment's answers are a script,
and that a sample finding it empty is a free value too and advances the counter `draws`, is the model's choice (log
entry 3). -/
def Obligations.RdlineReturnsTheSampledLevel : Prop :=
  ∀ (l : Line) (s : State),
    encode (.rdline l) = packWord 0x12#8 l.id 0x00#8 ∧
    (∀ (v : Level) (rest : List Level), getCell s.dir l = .input → s.pinIn = v :: rest →
      exec (.rdline l) s = .next { completed (.rdline l) .ok v.code s with
        pinIn := rest, trace := s.trace ++ [.smp l v] }) ∧
    (getCell s.dir l = .output ∨ s.pinIn = [] →
      exec (.rdline l) s = .next { completed (.rdline l) .ok (Config.freeLevel s.draws).code s with
        draws := s.draws + 1, trace := s.trace ++ [.smp l (Config.freeLevel s.draws)] })

/-- R113: `STROBE` drives the line High, holds, drives it Low; it ends Low and nothing else is written. -/
def Obligations.StrobePulsesTheLine : Prop :=
  ∀ (l : Line) (h : Byte) (s : State),
    encode (.strobe l h) = packWord 0x13#8 l.id h ∧
    exec (.strobe l h) s = .next { completed (.strobe l h) .ok s.result s with
      out := setCell s.out l .low
      trace := s.trace ++ [.drv l .high, .waitMs h.toNat, .drv l .low] }

/-- R114, R115: `DELAYMS` and `DELAYUS` wait the 16-bit count, high byte first, and write nothing but `ERR`. -/
def Obligations.DelaysWaitTheirCount : Prop :=
  ∀ (a b : Byte) (s : State),
    decode (packWord 0x14#8 a b) = some (.delayms (a ++ b)) ∧
    decode (packWord 0x15#8 a b) = some (.delayus (a ++ b)) ∧
    exec (.delayms (a ++ b)) s = .next { completed (.delayms (a ++ b)) .ok s.result s with
      trace := s.trace ++ [.waitMs (256 * a.toNat + b.toNat)] } ∧
    exec (.delayus (a ++ b)) s = .next { completed (.delayus (a ++ b)) .ok s.result s with
      trace := s.trace ++ [.waitUs (256 * a.toNat + b.toNat)] }

/-- R116, R32, R35: `SETBUSDIR` writes `BUSDIR` and `ERR` only; with Output the bus shows `BUSOUT` at once, with
Input the engine drives no bus pin, whatever `BUSOUT` holds. -/
def Obligations.SetbusdirWritesTheBusDirectionOnly : Prop :=
  ∀ (d : Direction) (s : State),
    encode (.setbusdir d) = packWord 0x18#8 0x00#8 d.code ∧
    exec (.setbusdir d) s = .next { completed (.setbusdir d) .ok s.result s with
      busDir := d, trace := s.trace ++ [.bdir d] } ∧
    busPins { s with busDir := d } = if d = .output then some s.busOut else none

/-- R117, R33: `WRBUS` writes `BUSOUT` and `ERR` only; while `BUSDIR` is Input only the latch changes. -/
def Obligations.WrbusWritesTheBusLatchOnly : Prop :=
  ∀ (b : Byte) (s : State),
    encode (.wrbus b) = packWord 0x19#8 0x00#8 b ∧
    exec (.wrbus b) s = .next { completed (.wrbus b) .ok s.result s with
      busOut := b, trace := s.trace ++ [.bdrv b] } ∧
    busPins { s with busOut := b } = if s.busDir = .output then some b else none

/-- R118, R34, R31: `RDBUS` with the bus Input returns the byte the environment presents; with the bus Output a free
value. Nothing else changes. That the environment's answers are a script, and that a sample finding it empty is a
free value too and advances the counter `draws`, is the model's choice (log entry 3). -/
def Obligations.RdbusReturnsTheSampledByte : Prop :=
  ∀ s : State,
    encode .rdbus = 0x1A0000#24 ∧
    (∀ (b : Byte) (rest : List Byte), s.busDir = .input → s.busIn = b :: rest →
      exec .rdbus s = .next { completed .rdbus .ok b s with
        busIn := rest, trace := s.trace ++ [.bsmp b] }) ∧
    (s.busDir = .output ∨ s.busIn = [] →
      exec .rdbus s = .next { completed .rdbus .ok (Config.freeByte s.draws) s with
        draws := s.draws + 1, trace := s.trace ++ [.bsmp (Config.freeByte s.draws)] })

/-- From R119: whatever an operation does (a protocol operation with its busy-wait and its abort included), the host
gets the same trace and the same final `DIR`, `OUT`, `BUSDIR` and `BUSOUT` from the same state by issuing, in order,
one operation of 40_line_primitives.md for each event. R119 has no premise on the configuration; R114 and R115 carry
16-bit counts only, so the first clause asks that the configured waits fit them, and the second says, of every
configuration, that the host gets all of it but the waits that do not fit. -/
def Obligations.OperationEqualsItsHostSpelling : Prop :=
  (∀ (i : Instr) (s t : State), WaitsFit s.cfg → exec i s = .next t →
    ∃ (spelled : List Instr) (u : State),
      (eventsOf s t).mapM hostSpelling? = some spelled ∧ runInstrs spelled s = .next u ∧
      u.trace = t.trace ∧ u.dir = t.dir ∧ u.out = t.out ∧ u.busDir = t.busDir ∧ u.busOut = t.busOut) ∧
  (∀ (i : Instr) (s t : State), exec i s = .next t →
    ∃ u : State, runInstrs ((eventsOf s t).filterMap hostSpelling?) s = .next u ∧
      u.trace = s.trace ++ (eventsOf s t).filter (fun e => (hostSpelling? e).isSome) ∧
      u.dir = t.dir ∧ u.out = t.out ∧ u.busDir = t.busDir ∧ u.busOut = t.busOut)

/-- R97, R99: `RDFUSE` and `WRFUSE` are the `PP_` operations of the parallel modes and the `SP_` operations of serial
mode; `NOP` performs one `WAITUS 0` event and nothing else; `WRPULSE` gives the three events of the burn pulse,
leaving WR High. -/
def Obligations.PseudoInstructionsExpandAsStated : Prop :=
  (∀ (f : FuseSel) (v : Byte) (m : Mode), m = .atmega ∨ m = .tiny2313 →
    pseudoRdfuse m f = some (.ppRdfuse f.bits) ∧ pseudoWrfuse m f v = some (.ppWrfuse f.bits v)) ∧
  (∀ (f : FuseSel) (v : Byte),
    pseudoRdfuse .hvsp f = some (.spRdfuse f.bits) ∧ pseudoWrfuse .hvsp f v = some (.spWrfuse f.bits v)) ∧
  ∀ s : State,
    encode pseudoNop = 0x150000#24 ∧
    exec pseudoNop s = .next { completed pseudoNop .ok s.result s with trace := s.trace ++ [.waitUs 0] } ∧
    (∃ t : State, runInstrs pseudoWrpulse s = .next t ∧
      t.trace = s.trace ++ [.drv .wr .low, .waitMs 1, .drv .wr .high] ∧
      t.out = setCell s.out .wr .high ∧ t.dir = s.dir)

/-! ### Mode selection, enter and exit -/

/-- R130: `SETMODE` with `ENTERED` = 0 writes MODE and `ERR` only, whatever MODE was; with `ENTERED` = 1 it is
refused with `ModeLocked`; and no word of its opcode with a stray bit or the operand 3 is a legal one. -/
def Obligations.SetmodeSelectsTheModeOutsideASession : Prop :=
  ∀ (m : Mode) (s : State), m ≠ .unselected →
    encode (.setmode m) = packWord 0x01#8 0x00#8 m.code ∧
    (s.entered = false →
      exec (.setmode m) s = .next { completed (.setmode m) .ok s.result s with mode := m }) ∧
    (s.entered = true →
      exec (.setmode m) s = .next (completed (.setmode m) .modeLocked s.result s)) ∧
    (∀ a b : Byte, a ≠ 0x00#8 ∨ b.toNat ≥ 3 → decode (packWord 0x01#8 a b) = none)

/-- R131: `ENTER` in MODE 0 or 1, event by event, with the registers it leaves; `AlreadyEntered` with `ENTERED` = 1,
and then `ModeUnselected` with MODE = 3. -/
def Obligations.EnterParallelRunsItsSequence : Prop :=
  (∀ s : State, s.entered = true → exec .enter s = .next (completed .enter .alreadyEntered s.result s)) ∧
  (∀ s : State, s.entered = false → s.mode = .unselected →
    exec .enter s = .next (completed .enter .modeUnselected s.result s)) ∧
  ∀ s : State, s.entered = false → s.mode = .atmega ∨ s.mode = .tiny2313 →
    encode .enter = 0x020000#24 ∧
    exec .enter s = .next { completed .enter .ok s.result s with
      entered := true
      busDir := .input
      dir := { s.dir with
        oe := .output, wr := .output, xtal1 := .output, bs1 := .output, bs2 := .output, xa0 := .output
        xa1 := .output, pagel := .output, rdy := .input }
      out := { s.out with
        vcc := s.cfg.vccOn, rst := s.cfg.rstOn, oe := .high, wr := .high, xtal1 := .low, bs1 := .low
        bs2 := .low, xa0 := .low, xa1 := .low, pagel := .low }
      trace := s.trace ++
        [.bdir .input, .dir .oe .output, .drv .oe .low, .dir .wr .output, .drv .wr .low,
          .dir .xtal1 .output, .drv .xtal1 .low, .dir .bs1 .output, .drv .bs1 .low,
          .dir .bs2 .output, .drv .bs2 .low, .dir .xa0 .output, .drv .xa0 .low,
          .dir .xa1 .output, .drv .xa1 .low, .dir .pagel .output, .drv .pagel .low, .dir .rdy .input,
          .drv .vcc s.cfg.vccOn, .waitUs 80, .drv .rst s.cfg.rstOn, .waitUs 10,
          .drv .oe .high, .drv .wr .high] }

/-- R132: `ENTER` in MODE 2, event by event, with the registers it leaves; `AlreadyEntered` with `ENTERED` = 1. -/
def Obligations.EnterSerialRunsItsSequence : Prop :=
  (∀ s : State, s.entered = true → s.mode = .hvsp →
    exec .enter s = .next (completed .enter .alreadyEntered s.result s)) ∧
  ∀ s : State, s.entered = false → s.mode = .hvsp →
    exec .enter s = .next { completed .enter .ok s.result s with
      entered := true
      busDir := .input
      dir := { s.dir with
        oe := .output, wr := .output, bs1 := .output, xa0 := .output, xa1 := .output, rdy := .input }
      out := { s.out with
        vcc := s.cfg.vccOn, rst := s.cfg.rstOn, oe := .high, wr := .high, bs1 := .low
        xa0 := .low, xa1 := .low, rdy := .low }
      trace := s.trace ++
        [.bdir .input, .dir .oe .output, .drv .oe .low, .dir .wr .output, .drv .wr .low,
          .dir .bs1 .output, .drv .bs1 .low, .dir .xa0 .output, .drv .xa0 .low,
          .dir .xa1 .output, .drv .xa1 .low, .drv .vcc s.cfg.vccOn, .waitUs 80,
          .dir .rdy .output, .drv .rdy .low, .drv .rst s.cfg.rstOn, .waitUs 1,
          .dir .rdy .input, .waitUs 10, .drv .oe .high, .drv .wr .high] }

/-- R133: `EXIT` clears `ENTERED`, deasserts RST, releases the bus, drives Low and releases each Output line of ids
2 to 10 in ascending order, and deasserts VCC last; MODE, RESULT and RESP are kept, START is not touched; the list
has 3 to 21 primitives. With `ENTERED` = 0 it is refused with `NotEntered`. -/
def Obligations.ExitReleasesTheTarget : Prop :=
  (∀ s : State, s.entered = false → exec .exit s = .next (completed .exit .notEntered s.result s)) ∧
  ∀ s : State, s.entered = true →
    encode .exit = 0x030000#24 ∧
    exec .exit s = .next { completed .exit .ok s.result s with
      entered := false
      busDir := .input
      dir := exitDir s.dir
      out := exitOut s.cfg s.dir s.out
      trace := s.trace ++ exitTrace s.cfg s.dir } ∧
    3 ≤ (exitTrace s.cfg s.dir).length ∧ (exitTrace s.cfg s.dir).length ≤ 21

/-- R134, R42: from a state that meets the rule's proviso, `EXIT` leaves `IdleLines`; and so does every operation
that times out, from a state of the engine's own making. -/
def Obligations.ExitAndAbortRestoreIdleLines : Prop :=
  (∀ s t : State, ExitProviso s → s.entered = true → exec .exit s = .next t → IdleLines t) ∧
  (∀ (i : Instr) (s t : State), BetweenOperations s → LineDiscipline s → exec i s = .next t →
    t.err = .targetTimeout → IdleLines t ∧ t.entered = false ∧ t.mode = s.mode ∧ t.result = s.result)

/-! ### HVPP -/

/-- R141, R140: `PP_SENDCMD`, event by event (`loadTrace`), with the registers it leaves. -/
def Obligations.PpSendcmdLoadsACommandByte : Prop :=
  ∀ (b : Byte) (s : State), s.entered = true → s.mode = .atmega ∨ s.mode = .tiny2313 →
    encode (.ppSendcmd b) = packWord 0x20#8 0x00#8 b ∧
    exec (.ppSendcmd b) s = .next { completed (.ppSendcmd b) .ok s.result s with
      out := loadOut s.mode .high .low s.out
      busDir := .input
      busOut := b
      trace := s.trace ++ loadTrace s.mode s.cfg .high .low b }

/-- R142, R140: `PP_LOADDATA` differs in the action-select levels only. -/
def Obligations.PpLoaddataLoadsADataByte : Prop :=
  ∀ (b : Byte) (s : State), s.entered = true → s.mode = .atmega ∨ s.mode = .tiny2313 →
    encode (.ppLoaddata b) = packWord 0x21#8 0x00#8 b ∧
    exec (.ppLoaddata b) s = .next { completed (.ppLoaddata b) .ok s.result s with
      out := loadOut s.mode .low .high s.out
      busDir := .input
      busOut := b
      trace := s.trace ++ loadTrace s.mode s.cfg .low .high b }

/-- R144, R186: `PP_WRFUSE` whose busy-wait sees m Low samples (fewer than `POLL_LIMIT`) and then a High one
completes with code 0, event by event, with the registers it leaves; RESULT is not written. -/
def Obligations.PpWrfuseBurnsWhenTheTargetGetsReady : Prop :=
  ∀ (f : FuseSel) (v : Byte) (s : State) (m : Nat) (rest : List Level),
    s.entered = true → s.mode = .atmega ∨ s.mode = .tiny2313 → (f = .extended → s.cfg.extEn = true) →
    s.dir.rdy = .input → s.pinIn = List.replicate m .low ++ .high :: rest → m < pollLimit s.cfg →
    exec (.ppWrfuse f.bits v) s = .next { completed (.ppWrfuse f.bits v) .ok s.result s with
      out := selectRolesOut s.mode .low .low (burnOut s.mode f s.out)
      busDir := .input
      busOut := v
      pcnt := m
      pinIn := rest
      trace := s.trace ++ burnTrace s.mode s.cfg f v ++ pollReadyTrace s.cfg m ++ deselectTrace s.mode }

/-- R144, R186, R187: `PP_WRFUSE` whose busy-wait sees `POLL_LIMIT` Low samples aborts: the deselect is dropped, the
exit list follows the last sample, and the operation completes with code 1, RESULT and MODE kept. -/
def Obligations.PpWrfuseTimeoutRunsTheExitList : Prop :=
  ∀ (f : FuseSel) (v : Byte) (s : State) (rest : List Level),
    s.entered = true → s.mode = .atmega ∨ s.mode = .tiny2313 → (f = .extended → s.cfg.extEn = true) →
    s.dir.rdy = .input → s.pinIn = List.replicate (pollLimit s.cfg) .low ++ rest →
    exec (.ppWrfuse f.bits v) s = .next { completed (.ppWrfuse f.bits v) .targetTimeout s.result s with
      entered := false
      dir := exitDir s.dir
      out := exitOut s.cfg s.dir (burnOut s.mode f s.out)
      busDir := .input
      busOut := v
      pcnt := pollLimit s.cfg
      pinIn := rest
      trace := s.trace ++ burnTrace s.mode s.cfg f v ++ pollTimeoutTrace s.cfg ++ exitTrace s.cfg s.dir }

/-- R145: `PP_RDFUSE` returns the byte the environment presents on the bus at its sample, event by event, with the
registers it leaves; the select lines stay at the pattern. Where the model's script of the environment is empty
the byte is a free value. -/
def Obligations.PpRdfuseReturnsTheBusByte : Prop :=
  ∀ (f : FuseSel) (s : State),
    s.entered = true → s.mode = .atmega ∨ s.mode = .tiny2313 → (f = .extended → s.cfg.extEn = true) →
    let after (v : Byte) : State :=
      { completed (.ppRdfuse f.bits) .ok v s with
        out := { selectOut s.mode f (loadOut s.mode .high .low s.out) with oe := .high }
        busDir := .input
        busOut := 0x04#8
        trace := s.trace ++ loadTrace s.mode s.cfg .high .low 0x04#8 ++ [.bdir .input] ++
          selectTrace s.mode f ++ [.drv .oe .low, .waitMs s.cfg.tOeMs, .bsmp v, .drv .oe .high] }
    (∀ (v : Byte) (rest : List Byte), s.busIn = v :: rest →
      exec (.ppRdfuse f.bits) s = .next { after v with busIn := rest }) ∧
    (s.busIn = [] →
      exec (.ppRdfuse f.bits) s = .next { after (Config.freeByte s.draws) with draws := s.draws + 1 })

/-- R146 (d), R143, R89: for every selector the two `SELECT` events of `PP_WRFUSE` (24 and 25 in MODE 0, 22 and 23 in
MODE 1) and of `PP_RDFUSE` (13 and 14, 12 and 13) are the same two events, whatever the environment answers. -/
def Obligations.SelectPatternIsTheSameOnBothPaths : Prop :=
  ∀ (f : FuseSel) (v : Byte) (s r tw tr : State),
    s.entered = true → r.entered = true → s.mode = .atmega ∨ s.mode = .tiny2313 → r.mode = s.mode →
    (f = .extended → s.cfg.extEn = true ∧ r.cfg.extEn = true) →
    exec (.ppWrfuse f.bits v) s = .next tw → exec (.ppRdfuse f.bits) r = .next tr →
    ((eventsOf s tw).drop (if s.mode = .atmega then 24 else 22)).take 2 = selectTrace s.mode f ∧
    ((eventsOf r tr).drop (if s.mode = .atmega then 13 else 12)).take 2 = selectTrace s.mode f

/-- R146 (a), R183: an HVPP operation that runs, to its end or to the timeout abort, leaves the bus Input; a refused
one leaves the bus direction as it was. -/
def Obligations.HvppOperationsParkTheBus : Prop :=
  ∀ (i : Instr) (s t : State), isHvpp i = true → exec i s = .next t →
    (refusalOf i s = none → t.busDir = .input) ∧
    (∀ e : ErrCode, refusalOf i s = some e → t.busDir = s.busDir)

/-- R146 (b), (c), R221: at every moment of an operation the engine builds, from every state of the line discipline,
the bus is Input while OE is Low: in a session and outside it, in the HVPP and HVSP operations, the preparation of
`ENTER`, `EXIT` and the timeout abort. -/
def Obligations.EngineNeverFightsForTheBus : Prop :=
  ∀ (i : Instr) (s t : State), isLineOperation i = false → BetweenOperations s → LineDiscipline s →
    exec i s = .next t → neverFightsForBus s.busDir s.out.oe (eventsOf s t) = true

/-- R146 (e), (f): with XTAL1 Low and WR and OE High before, `PP_SENDCMD` and `PP_LOADDATA` give one XTAL1 pulse,
`PP_WRFUSE` two XTAL1 pulses and one WR pulse and, when it succeeds, both select roles Low, and `PP_RDFUSE` one
XTAL1 pulse and one OE pulse. -/
def Obligations.HvppPulseCounts : Prop :=
  ∀ (b : Byte) (f : FuseSel) (s t : State),
    s.entered = true → s.mode = .atmega ∨ s.mode = .tiny2313 → (f = .extended → s.cfg.extEn = true) →
    s.out.xtal1 = .low → s.out.wr = .high → s.out.oe = .high →
    ((exec (.ppSendcmd b) s = .next t ∨ exec (.ppLoaddata b) s = .next t) →
      risingEdges .xtal1 .low (eventsOf s t) = 1 ∧ fallingEdges .xtal1 .low (eventsOf s t) = 1) ∧
    (exec (.ppWrfuse f.bits b) s = .next t → t.err = .ok →
      risingEdges .xtal1 .low (eventsOf s t) = 2 ∧ fallingEdges .xtal1 .low (eventsOf s t) = 2 ∧
      fallingEdges .wr .high (eventsOf s t) = 1 ∧ risingEdges .wr .high (eventsOf s t) = 1 ∧
      t.out.bs1 = .low ∧ getCell t.out (bs2Line s.mode) = .low) ∧
    (exec (.ppRdfuse f.bits) s = .next t →
      risingEdges .xtal1 .low (eventsOf s t) = 1 ∧ fallingEdges .xtal1 .low (eventsOf s t) = 1 ∧
      fallingEdges .oe .high (eventsOf s t) = 1 ∧ risingEdges .oe .high (eventsOf s t) = 1)

/-- R25, R131: in MODE 1 the physical lines BS2 and PAGEL carry no role: no HVPP operation that is not aborted drives
them. -/
def Obligations.Mode1OperationsLeaveBs2AndPagelAlone : Prop :=
  ∀ (i : Instr) (s t : State), isHvpp i = true → s.mode = .tiny2313 → exec i s = .next t →
    t.err ≠ .targetTimeout →
    (eventsOf s t).all (fun e => !isDriveOf .bs2 e && !isDriveOf .pagel e) = true ∧
    t.out.bs2 = s.out.bs2 ∧ t.out.pagel = s.out.pagel ∧ t.dir = s.dir

/-! ### HVSP -/

/-- R160, R88: `SP_XFER` with the eight samples v0 to v7 returns them, first sample most significant; event by event
(`frameTrace`), with the registers it leaves. -/
def Obligations.SpXferShiftsOneFrame : Prop :=
  ∀ (d i : Byte) (s : State) (v0 v1 v2 v3 v4 v5 v6 v7 : Level) (rest : List Level),
    s.entered = true → s.mode = .hvsp → s.dir.rdy = .input →
    s.pinIn = [v0, v1, v2, v3, v4, v5, v6, v7] ++ rest →
    encode (.spXfer d i) = packWord 0x30#8 i d ∧
    exec (.spXfer d i) s = .next
      { completed (.spXfer d i) .ok (responseByte [v0, v1, v2, v3, v4, v5, v6, v7]) s with
        out := { s.out with bs1 := .low, xa0 := .low, xa1 := .low }
        resp := responseByte [v0, v1, v2, v3, v4, v5, v6, v7]
        pinIn := rest
        trace := s.trace ++ frameTrace s.cfg d i [v0, v1, v2, v3, v4, v5, v6, v7] }

/-- R165 (a) to (d), R88: whatever the environment answers and whatever the two bytes are, a frame gives exactly
eleven clock pulses, SDI and SII carry `0 bbbbbbbb 00` at the rising edges, SDO is sampled eight times, the bus
is not touched, the three lines end Low, and the response is the eight samples. -/
def Obligations.FrameLengthInvariant : Prop :=
  ∀ (d i : Byte) (s : State), s.entered = true → s.mode = .hvsp → s.out.bs1 = .low →
    ∃ t : State, exec (.spXfer d i) s = .next t ∧ t.err = .ok ∧
      risingEdges .bs1 .low (eventsOf s t) = 11 ∧ fallingEdges .bs1 .low (eventsOf s t) = 11 ∧
      levelsAtRises .bs1 .xa1 .low s.out.xa1 (eventsOf s t) = serialStream d ∧
      levelsAtRises .bs1 .xa0 .low s.out.xa0 (eventsOf s t) = serialStream i ∧
      (samplesOf .rdy (eventsOf s t)).length = 8 ∧
      (eventsOf s t).any isBusEvent = false ∧
      t.out.bs1 = .low ∧ t.out.xa1 = .low ∧ t.out.xa0 = .low ∧
      t.result = responseByte (samplesOf .rdy (eventsOf s t)) ∧ t.resp = t.result

/-- R162, R161, R88, R165 (a): whatever the environment answers, `SP_RDFUSE` sends the three frames of its `SPTAB` row,
event by event (`frameTrace`: 33 clock pulses, and the eight samples of each frame in their bit-times), and returns
the third frame's response, the last eight of the 24 samples. The samples are the environment's first 24 answers where
SDO is Input and the model's script holds that many (log entry 3). The whole next state is given, but for what is left
of the script and of the free values. -/
def Obligations.SpRdfuseReturnsTheThirdFramesResponse : Prop :=
  ∀ (f : FuseSel) (s : State), s.entered = true → s.mode = .hvsp → (f = .extended → s.cfg.extEn = true) →
    ∃ (v1 v2 v3 pins : List Level) (draws : Nat) (t : State),
      v1.length = 8 ∧ v2.length = 8 ∧ v3.length = 8 ∧
      (s.dir.rdy = .input → 24 ≤ s.pinIn.length → s.pinIn = v1 ++ v2 ++ v3 ++ pins) ∧
      exec (.spRdfuse f.bits) s = .next t ∧
      t = { completed (.spRdfuse f.bits) .ok (responseByte v3) s with
        out := { s.out with bs1 := .low, xa0 := .low, xa1 := .low }
        resp := responseByte v3
        pinIn := pins, draws := draws
        trace := s.trace ++
          frameTrace s.cfg (spRead s.cfg.spTab f).first.data (spRead s.cfg.spTab f).first.instr v1 ++
          frameTrace s.cfg (spRead s.cfg.spTab f).second.data (spRead s.cfg.spTab f).second.instr v2 ++
          frameTrace s.cfg (spRead s.cfg.spTab f).third.data (spRead s.cfg.spTab f).third.instr v3 } ∧
      risingEdges .bs1 s.out.bs1 (eventsOf s t) = 33 ∧
      levelsAtRises .bs1 .xa1 s.out.bs1 s.out.xa1 (eventsOf s t) =
        serialStream (spRead s.cfg.spTab f).first.data ++ serialStream (spRead s.cfg.spTab f).second.data ++
        serialStream (spRead s.cfg.spTab f).third.data ∧
      levelsAtRises .bs1 .xa0 s.out.bs1 s.out.xa0 (eventsOf s t) =
        serialStream (spRead s.cfg.spTab f).first.instr ++ serialStream (spRead s.cfg.spTab f).second.instr ++
        serialStream (spRead s.cfg.spTab f).third.instr ∧
      samplesOf .rdy (eventsOf s t) = v1 ++ v2 ++ v3

/-- R163, R161, R165 (a), R186: `SP_WRFUSE` whose busy-wait, after the frames' 32 samples, sees m Low samples (fewer
than `POLL_LIMIT`) and then a High one sends the four frames of its `SPTAB` row, the second carrying the fuse
value, and completes with code 0 without writing RESULT. -/
def Obligations.SpWrfuseBurnsWhenTheTargetGetsReady : Prop :=
  ∀ (f : FuseSel) (v : Byte) (s : State) (frames : List Level) (m : Nat) (rest : List Level),
    s.entered = true → s.mode = .hvsp → (f = .extended → s.cfg.extEn = true) → s.dir.rdy = .input →
    frames.length = 32 → s.pinIn = frames ++ List.replicate m .low ++ .high :: rest → m < pollLimit s.cfg →
    exec (.spWrfuse f.bits v) s = .next { completed (.spWrfuse f.bits v) .ok s.result s with
      out := { s.out with bs1 := .low, xa0 := .low, xa1 := .low }
      resp := responseByte (frames.drop 24)
      pcnt := m
      pinIn := rest
      trace := s.trace ++
        frameTrace s.cfg (spWrite s.cfg.spTab f).first.data (spWrite s.cfg.spTab f).first.instr (frames.take 8) ++
        frameTrace s.cfg v (spWrite s.cfg.spTab f).secondInstr ((frames.drop 8).take 8) ++
        frameTrace s.cfg (spWrite s.cfg.spTab f).third.data (spWrite s.cfg.spTab f).third.instr
          ((frames.drop 16).take 8) ++
        frameTrace s.cfg (spWrite s.cfg.spTab f).fourth.data (spWrite s.cfg.spTab f).fourth.instr
          (frames.drop 24) ++
        pollReadyTrace s.cfg m }

/-- R163, R186, R187: `SP_WRFUSE` whose busy-wait sees `POLL_LIMIT` Low samples aborts as `PP_WRFUSE` does. -/
def Obligations.SpWrfuseTimeoutRunsTheExitList : Prop :=
  ∀ (f : FuseSel) (v : Byte) (s : State) (frames : List Level) (rest : List Level),
    s.entered = true → s.mode = .hvsp → (f = .extended → s.cfg.extEn = true) → s.dir.rdy = .input →
    frames.length = 32 → s.pinIn = frames ++ List.replicate (pollLimit s.cfg) .low ++ rest →
    exec (.spWrfuse f.bits v) s = .next { completed (.spWrfuse f.bits v) .targetTimeout s.result s with
      entered := false
      dir := exitDir s.dir
      out := exitOut s.cfg s.dir { s.out with bs1 := .low, xa0 := .low, xa1 := .low }
      busDir := .input
      resp := responseByte (frames.drop 24)
      pcnt := pollLimit s.cfg
      pinIn := rest
      trace := s.trace ++
        frameTrace s.cfg (spWrite s.cfg.spTab f).first.data (spWrite s.cfg.spTab f).first.instr (frames.take 8) ++
        frameTrace s.cfg v (spWrite s.cfg.spTab f).secondInstr ((frames.drop 8).take 8) ++
        frameTrace s.cfg (spWrite s.cfg.spTab f).third.data (spWrite s.cfg.spTab f).third.instr
          ((frames.drop 16).take 8) ++
        frameTrace s.cfg (spWrite s.cfg.spTab f).fourth.data (spWrite s.cfg.spTab f).fourth.instr
          (frames.drop 24) ++
        pollTimeoutTrace s.cfg ++ exitTrace s.cfg s.dir }

/-- R161: the default `SPTAB`, byte for byte. -/
def Obligations.DefaultSptabIsAsStated : Prop :=
  (∀ f : FuseSel, (spRead defaultParams.spTab f).first = ⟨0x04#8, 0x4C#8⟩ ∧
    (spRead defaultParams.spTab f).second.data = 0x00#8 ∧ (spRead defaultParams.spTab f).third.data = 0x00#8 ∧
    (spWrite defaultParams.spTab f).first = ⟨0x40#8, 0x4C#8⟩ ∧
    (spWrite defaultParams.spTab f).secondInstr = 0x2C#8 ∧
    (spWrite defaultParams.spTab f).third.data = 0x00#8 ∧ (spWrite defaultParams.spTab f).fourth.data = 0x00#8) ∧
  [FuseSel.low, .high, .extended].map (fun f => (spRead defaultParams.spTab f).second.instr) =
    [0x68#8, 0x7A#8, 0x6A#8] ∧
  [FuseSel.low, .high, .extended].map (fun f => (spRead defaultParams.spTab f).third.instr) =
    [0x6C#8, 0x7E#8, 0x6E#8] ∧
  [FuseSel.low, .high, .extended].map (fun f => (spWrite defaultParams.spTab f).third.instr) =
    [0x64#8, 0x74#8, 0x66#8] ∧
  [FuseSel.low, .high, .extended].map (fun f => (spWrite defaultParams.spTab f).fourth.instr) =
    [0x6C#8, 0x7C#8, 0x6E#8]

/-! ### Errors -/

/-- R181, R182, R183: the first failing check of an operation, lifecycle before mode before selector, decides the
code, and the refusal performs no primitive and changes nothing but the latched word and `ERR`. -/
def Obligations.FirstFailingCheckRefusesWithoutEffect : Prop :=
  ∀ (i : Instr) (s : State) (e : ErrCode), i.wellFormed = true → refusalOf i s = some e →
    exec i s = .next (completed i e s.result s)

/-- R180, R182: an operation no check refuses completes with code 0, or, if it contains `POLL`, with code 0 or 1; and
the codes 2 to 8 come from the checks only. -/
def Obligations.UnrefusedOperationsCompleteOrTimeOut : Prop :=
  ∀ (i : Instr) (s t : State), i.wellFormed = true → refusalOf i s = none → exec i s = .next t →
    t.err = .ok ∨ (t.err = .targetTimeout ∧ hasPoll i = true)

/-- R180: the 4-bit numbers of the completion codes; 9 to 15 are no code of the machine. -/
def Obligations.ErrorCodesAreNumberedAsStated : Prop :=
  [ErrCode.ok, .targetTimeout, .illegalCommand, .notEntered, .alreadyEntered, .modeMismatch, .modeUnselected,
    .modeLocked, .badSelector].map ErrCode.code = [0#4, 1#4, 2#4, 3#4, 4#4, 5#4, 6#4, 7#4, 8#4] ∧
  ∀ e : ErrCode, e.code.toNat ≤ 8

/-- R186, R72 (d): no operation takes `PCNT` above `POLL_LIMIT`, and one without `POLL` does not write it. -/
def Obligations.PcntStaysWithinPollLimit : Prop :=
  ∀ (i : Instr) (s t : State), exec i s = .next t →
    (s.pcnt ≤ pollLimit s.cfg → t.pcnt ≤ pollLimit t.cfg) ∧ (hasPoll i = false → t.pcnt = s.pcnt)

/-! ### Rules of the whole machine -/

/-- R21: MODE is written only by `SETMODE`, never while `ENTERED` = 1, and by no other operation and no error. -/
def Obligations.OnlySetmodeWritesMode : Prop :=
  ∀ (i : Instr) (s t : State), exec i s = .next t → t.mode ≠ s.mode →
    ∃ m : Mode, i = .setmode m ∧ m ≠ .unselected ∧ t.mode = m ∧ s.entered = false ∧ t.err = .ok

/-- R22: `ENTERED` is set by a completed `ENTER` and cleared by `EXIT` and by the timeout abort, and nothing else
writes it. -/
def Obligations.OnlyEnterExitAndAbortWriteEntered : Prop :=
  ∀ (i : Instr) (s t : State), exec i s = .next t →
    (s.entered = false → t.entered = true → i = .enter ∧ t.err = .ok) ∧
    (s.entered = true → t.entered = false → (i = .exit ∧ t.err = .ok) ∨ t.err = .targetTimeout) ∧
    (i = .enter → t.err = .ok → t.entered = true) ∧
    (i = .exit ∨ t.err = .targetTimeout → t.entered = false)

/-- R24: `OPC`, `OPA`, `OPB` hold the fields of the operation's word; RESULT changes only by a value-returning
operation that completes with `ERR` = 0; RESP changes only by a frame. -/
def Obligations.DataRegistersChangeAsStated : Prop :=
  ∀ (i : Instr) (s t : State), exec i s = .next t →
    (t.opc = opField (encode i) ∧ t.opa = aField (encode i) ∧ t.opb = bField (encode i)) ∧
    (t.result ≠ s.result → returnsValue i = true ∧ t.err = .ok) ∧
    (t.resp ≠ s.resp → isHvsp i = true)

/-- R26, R38, R43, R191, R212: every operation completes: one response, the pair (`ERR`, RESULT) it leaves; ready
again with `upc` 0; the trace only grows; the configuration and the host's further inputs are as they were. -/
def Obligations.EveryOperationCompletesWithOneResponse : Prop :=
  ∀ (i : Instr) (s : State), ∃ (t : State) (events : List Event), exec i s = .next t ∧
    t.responses = s.responses ++ [⟨t.err, t.result⟩] ∧ t.busy = false ∧ t.upc = 0#9 ∧
    t.trace = s.trace ++ events ∧ t.cfg = s.cfg ∧ t.hostIn = s.hostIn

/-- The nine line, bus and timing operations never read or write `ENTERED`, MODE or RESP, and run in every lifecycle
state and every mode (40_line_primitives.md, R192). -/
def Obligations.LineOperationsRunInEveryState : Prop :=
  ∀ (i : Instr) (s : State), isLineOperation i = true →
    ∃ t : State, exec i s = .next t ∧ t.err = .ok ∧ t.entered = s.entered ∧ t.mode = s.mode ∧ t.resp = s.resp ∧
      (∀ (e : Bool) (m : Mode) (r : Byte),
        exec i { s with entered := e, mode := m, resp := r } =
          .next { t with entered := e, mode := m, resp := r })

/-- R222: in a session or outside it, every `DRV` of an engine-built operation is to a line that is Output at that
moment, and every `SMP` of a line that is Input, from every state of the line discipline. -/
def Obligations.EngineSetsDirectionBeforeAccess : Prop :=
  ∀ (i : Instr) (s t : State), isLineOperation i = false → BetweenOperations s → LineDiscipline s →
    exec i s = .next t →
    drivesOutputsOnly s.dir (eventsOf s t) = true ∧ samplesInputsOnly s.dir (eventsOf s t) = true

/-- R26, R182 (last sentence): a step keeps what holds between operations: not busy, `upc` 0, and no session without
a mode. -/
def Obligations.StepKeepsBetweenOperations : Prop :=
  ∀ s t : State, BetweenOperations s → step s = .next t → BetweenOperations t

/-- The state after reset is one between operations. -/
def Obligations.ResetIsBetweenOperations : Prop :=
  BetweenOperations State.reset

/-- R134, R146 (a), R165 (e), R226: with a host that does not move the lines behind the engine's back, every step
keeps the line discipline, through sessions, refusals, timeouts and resets. -/
def Obligations.StepKeepsTheDisciplinedRun : Prop :=
  ∀ s t : State, DisciplinedRun s → step s = .next t → DisciplinedRun t

/-- Every run of a well-behaved host from reset, under every configuration and every environment, starts
disciplined. -/
def Obligations.ResetStartsADisciplinedRun : Prop :=
  ∀ (p : Params) (host : List HostInput) (pins : List Level) (buses : List Byte),
    (∀ h ∈ host, WellBehaved h = true) →
    DisciplinedRun { State.ofParams p with hostIn := host, pinIn := pins, busIn := buses }

/-! ### Configuration -/

/-- R5: the default of every parameter that has one, the three fixed waits (constants as R5 marks them: log entry 14),
and a `POLL_LIMIT` of at least 1 whatever the configuration. That `State.reset` runs under the defaults is the model's
choice, and so is its `POLL_LIMIT`, which R5 leaves open and this statement does not name (log entry 2). -/
def Obligations.DefaultParametersAreAsStated : Prop :=
  defaultParams.extEn = true ∧ defaultParams.vccOn = .high ∧ vccOffLevel defaultParams = .low ∧
  defaultParams.rstOn = .low ∧ rstOffLevel defaultParams = .high ∧
  defaultParams.tBusSetupMs = 1 ∧ defaultParams.tXtalHoldMs = 1 ∧ defaultParams.tBusHoldMs = 1 ∧
  defaultParams.tSelSetupMs = 1 ∧ defaultParams.tWrLowMs = 1 ∧ defaultParams.tOeMs = 1 ∧
  defaultParams.tSciSetupUs = 1 ∧ defaultParams.tSciHighUs = 1 ∧ defaultParams.tPollUs = 100 ∧
  tVccUs = 80 ∧ tRstUs = 10 ∧ tSdoUs = 1 ∧
  (∀ p : Params, 1 ≤ pollLimit p) ∧
  State.reset.cfg = defaultParams
end

