-- ==== Sys2Proof/Laws/Decode.lean ====
section
/-!
SUPPORT. The small lemmas of the command word: its fields, and each operand encoding with its reading back.
-/

namespace Sys2Proof

/-! ### Fields of a word -/

theorem getLsbD_packWord (op a b : Byte) (i : Nat) : (packWord op a b).getLsbD i =
    if i < 8 then b.getLsbD i else if i < 16 then a.getLsbD (i - 8) else op.getLsbD (i - 16) := by
  have h1 : (packWord op a b).getLsbD i = if i < 8 then b.getLsbD i else (op ++ a).getLsbD (i - 8) :=
    BitVec.getLsbD_append
  have h2 : (op ++ a).getLsbD (i - 8) = if i - 8 < 8 then a.getLsbD (i - 8) else op.getLsbD (i - 8 - 8) :=
    BitVec.getLsbD_append
  rw [h1, h2]
  by_cases h : i < 8
  · simp [h]
  · by_cases h' : i < 16
    · have : i - 8 < 8 := by omega
      simp [h, h', this]
    · have : ¬ (i - 8 < 8) := by omega
      simp [h, h', this, Nat.sub_sub]

@[simp] theorem opField_packWord (op a b : Byte) : opField (packWord op a b) = op := by
  apply BitVec.eq_of_getLsbD_eq
  intro i hi
  have : ¬ 16 + i < 8 := by omega
  simp [opField, getLsbD_packWord, hi, this]

@[simp] theorem aField_packWord (op a b : Byte) : aField (packWord op a b) = a := by
  apply BitVec.eq_of_getLsbD_eq
  intro i hi
  have : 8 + i < 16 := by omega
  simp [aField, getLsbD_packWord, hi, this]

@[simp] theorem bField_packWord (op a b : Byte) : bField (packWord op a b) = b := by
  apply BitVec.eq_of_getLsbD_eq
  intro i hi
  simp [bField, getLsbD_packWord, hi]

/-- The three fields are the whole word (R80). -/
theorem packWord_fields (w : CmdWord) : packWord (opField w) (aField w) (bField w) = w := by
  apply BitVec.eq_of_getLsbD_eq
  intro i hi
  rw [getLsbD_packWord]
  simp only [opField, aField, bField, BitVec.getLsbD_extractLsb']
  split
  · simp_all
  · split
    · have : i - 8 < 8 := by omega
      have h' : 8 + (i - 8) = i := by omega
      simp [this, h']
    · have : i - 16 < 8 := by omega
      have h' : 16 + (i - 16) = i := by omega
      simp [this, h']

theorem packWord_inj {op a b op' a' b' : Byte} :
    packWord op a b = packWord op' a' b' ↔ op = op' ∧ a = a' ∧ b = b' := by
  constructor
  · intro h
    exact ⟨by simpa using congrArg opField h, by simpa using congrArg aField h, by simpa using congrArg bField h⟩
  · rintro ⟨rfl, rfl, rfl⟩
    rfl

/-- Masking works field by field. -/
theorem packWord_and (op a b op' a' b' : Byte) :
    packWord op a b &&& packWord op' a' b' = packWord (op &&& op') (a &&& a') (b &&& b') := by
  apply BitVec.eq_of_getLsbD_eq
  intro i hi
  simp only [BitVec.getLsbD_and, getLsbD_packWord]
  split
  · rfl
  · split <;> rfl

/-- The 16-bit count is its two bytes, high byte first (R64). -/
theorem append_extract (n : BitVec 16) : n.extractLsb' 8 8 ++ n.extractLsb' 0 8 = n := by
  apply BitVec.eq_of_getLsbD_eq
  intro i hi
  rw [show (n.extractLsb' 8 8 ++ n.extractLsb' 0 8).getLsbD i =
    if i < 8 then (n.extractLsb' 0 8).getLsbD i else (n.extractLsb' 8 8).getLsbD (i - 8)
    from BitVec.getLsbD_append]
  simp only [BitVec.getLsbD_extractLsb']
  by_cases h : i < 8
  · simp [h]
  · have : i - 8 < 8 := by omega
    have h' : 8 + (i - 8) = i := by omega
    simp [h, this, h']

theorem extract_append (a b : Byte) : (a ++ b).extractLsb' 8 8 = a ∧ (a ++ b).extractLsb' 0 8 = b := by
  constructor <;> apply BitVec.eq_of_getLsbD_eq <;> intro i hi
  · rw [BitVec.getLsbD_extractLsb', show (a ++ b).getLsbD (8 + i) =
      if 8 + i < 8 then b.getLsbD (8 + i) else a.getLsbD (8 + i - 8) from BitVec.getLsbD_append]
    simp [hi]
  · rw [BitVec.getLsbD_extractLsb', show (a ++ b).getLsbD (0 + i) =
      if 0 + i < 8 then b.getLsbD (0 + i) else a.getLsbD (0 + i - 8) from BitVec.getLsbD_append]
    simp [hi]

/-! ### Operand encodings read back -/

@[simp] theorem lineOperand_id (l : Line) : lineOperand? l.id = some l := by cases l <;> decide

@[simp] theorem directionOperand_code (d : Direction) : directionOperand? d.code = some d := by cases d <;> decide

@[simp] theorem levelOperand_code (v : Level) : levelOperand? v.code = some v := by cases v <;> decide

@[simp] theorem modeOperand_code (m : Mode) (h : m ≠ .unselected) : modeOperand? m.code = some m := by
  cases m <;> first | decide | exact absurd rfl h

@[simp] theorem selectorOperand_setWidth (sel : BitVec 2) : selectorOperand? (sel.setWidth 8) = some sel := by
  revert sel; decide

@[simp] theorem opcode_code (o : Opcode) : opcode? o.code = some o := by cases o <;> decide

theorem lineOperand_some {a : Byte} {l : Line} (h : lineOperand? a = some l) : a = l.id := by
  have := List.find?_some h
  simpa using (eq_of_beq this).symm

theorem opcode_some {a : Byte} {o : Opcode} (h : opcode? a = some o) : a = o.code := by
  have := List.find?_some h
  simpa using (eq_of_beq this).symm

theorem directionOperand_some {b : Byte} {d : Direction} (h : directionOperand? b = some d) : b = d.code := by
  cases d <;> revert b <;> decide

theorem levelOperand_some {b : Byte} {v : Level} (h : levelOperand? b = some v) : b = v.code := by
  cases v <;> revert b <;> decide

theorem modeOperand_some {b : Byte} {m : Mode} (h : modeOperand? b = some m) : b = m.code ∧ m ≠ .unselected := by
  cases m <;> revert b <;> decide

theorem selectorOperand_some {a : Byte} {sel : BitVec 2} (h : selectorOperand? a = some sel) :
    a = sel.setWidth 8 := by
  revert a sel; decide

theorem unused_some {f : Byte} {o : Option Instr} {i : Instr} :
    unused? f o = some i ↔ f = 0x00#8 ∧ o = some i := by
  unfold unused?
  split <;> simp_all

theorem unused_none {f : Byte} {o : Option Instr} : unused? f o = none ↔ f ≠ 0x00#8 ∨ o = none := by
  unfold unused?
  split <;> simp_all

/-! ### Levels and bits -/

/-- Bit 0 of `zext_8` of a level is the level. -/
@[simp] theorem ofBit_code (v : Level) : Level.ofBit (v.code.getLsbD 0) = v := by cases v <;> rfl

@[simp] theorem flip_flip (v : Level) : v.flip.flip = v := by cases v <;> rfl

end Sys2Proof
end

