-- ==== Sys2Proof/Laws/State.lean ====
section
/-!
SUPPORT. The small lemmas of State: one lemma per field per update, each true by rfl (by cases for the two sample
operations), so that no later proof unfolds a record update; and the laws of a register array.
-/

namespace Sys2Proof.Machine

/-! ### Reading and writing one line's cell -/

@[simp] theorem getCell_setCell_self {α : Type} (r : PerLine α) (l : Line) (v : α) : getCell (setCell r l v) l = v := by
  cases l <;> rfl

@[simp] theorem getCell_setCell_ne {α : Type} (r : PerLine α) (l m : Line) (v : α) (h : m ≠ l) :
    getCell (setCell r l v) m = getCell r m := by
  cases l <;> cases m <;> first | rfl | exact absurd rfl h

theorem getCell_setCell {α : Type} (r : PerLine α) (l m : Line) (v : α) :
    getCell (setCell r l v) m = if m = l then v else getCell r m := by
  split
  · next h => subst h; exact getCell_setCell_self r m v
  · next h => exact getCell_setCell_ne r l m v h

theorem perLine_ext {α : Type} {r q : PerLine α} (h : ∀ l, getCell r l = getCell q l) : r = q := by
  cases r
  cases q
  have := h .vcc; have := h .rst; have := h .oe; have := h .wr; have := h .xtal1; have := h .rdy
  have := h .bs1; have := h .bs2; have := h .xa0; have := h .xa1; have := h .pagel; have := h .start
  simp_all [getCell]

/-! ### dirLine -/

@[simp] theorem dirLine_mode (l : Line) (d : Direction) (s : State) : (dirLine l d s).mode = s.mode := rfl

@[simp] theorem dirLine_entered (l : Line) (d : Direction) (s : State) : (dirLine l d s).entered = s.entered := rfl

@[simp] theorem dirLine_dir (l : Line) (d : Direction) (s : State) : (dirLine l d s).dir = setCell s.dir l d := rfl

@[simp] theorem dirLine_out (l : Line) (d : Direction) (s : State) : (dirLine l d s).out = s.out := rfl

@[simp] theorem dirLine_busDir (l : Line) (d : Direction) (s : State) : (dirLine l d s).busDir = s.busDir := rfl

@[simp] theorem dirLine_busOut (l : Line) (d : Direction) (s : State) : (dirLine l d s).busOut = s.busOut := rfl

@[simp] theorem dirLine_opc (l : Line) (d : Direction) (s : State) : (dirLine l d s).opc = s.opc := rfl

@[simp] theorem dirLine_opa (l : Line) (d : Direction) (s : State) : (dirLine l d s).opa = s.opa := rfl

@[simp] theorem dirLine_opb (l : Line) (d : Direction) (s : State) : (dirLine l d s).opb = s.opb := rfl

@[simp] theorem dirLine_resp (l : Line) (d : Direction) (s : State) : (dirLine l d s).resp = s.resp := rfl

@[simp] theorem dirLine_result (l : Line) (d : Direction) (s : State) : (dirLine l d s).result = s.result := rfl

@[simp] theorem dirLine_err (l : Line) (d : Direction) (s : State) : (dirLine l d s).err = s.err := rfl

@[simp] theorem dirLine_busy (l : Line) (d : Direction) (s : State) : (dirLine l d s).busy = s.busy := rfl

@[simp] theorem dirLine_upc (l : Line) (d : Direction) (s : State) : (dirLine l d s).upc = s.upc := rfl

@[simp] theorem dirLine_pcnt (l : Line) (d : Direction) (s : State) : (dirLine l d s).pcnt = s.pcnt := rfl

@[simp] theorem dirLine_cfg (l : Line) (d : Direction) (s : State) : (dirLine l d s).cfg = s.cfg := rfl

@[simp] theorem dirLine_hostIn (l : Line) (d : Direction) (s : State) : (dirLine l d s).hostIn = s.hostIn := rfl

@[simp] theorem dirLine_pinIn (l : Line) (d : Direction) (s : State) : (dirLine l d s).pinIn = s.pinIn := rfl

@[simp] theorem dirLine_busIn (l : Line) (d : Direction) (s : State) : (dirLine l d s).busIn = s.busIn := rfl

@[simp] theorem dirLine_draws (l : Line) (d : Direction) (s : State) : (dirLine l d s).draws = s.draws := rfl

@[simp] theorem dirLine_trace (l : Line) (d : Direction) (s : State) : (dirLine l d s).trace = s.trace ++ [.dir l d] := rfl

@[simp] theorem dirLine_responses (l : Line) (d : Direction) (s : State) : (dirLine l d s).responses = s.responses := rfl

/-! ### drvLine -/

@[simp] theorem drvLine_mode (l : Line) (v : Level) (s : State) : (drvLine l v s).mode = s.mode := rfl

@[simp] theorem drvLine_entered (l : Line) (v : Level) (s : State) : (drvLine l v s).entered = s.entered := rfl

@[simp] theorem drvLine_dir (l : Line) (v : Level) (s : State) : (drvLine l v s).dir = s.dir := rfl

@[simp] theorem drvLine_out (l : Line) (v : Level) (s : State) : (drvLine l v s).out = setCell s.out l v := rfl

@[simp] theorem drvLine_busDir (l : Line) (v : Level) (s : State) : (drvLine l v s).busDir = s.busDir := rfl

@[simp] theorem drvLine_busOut (l : Line) (v : Level) (s : State) : (drvLine l v s).busOut = s.busOut := rfl

@[simp] theorem drvLine_opc (l : Line) (v : Level) (s : State) : (drvLine l v s).opc = s.opc := rfl

@[simp] theorem drvLine_opa (l : Line) (v : Level) (s : State) : (drvLine l v s).opa = s.opa := rfl

@[simp] theorem drvLine_opb (l : Line) (v : Level) (s : State) : (drvLine l v s).opb = s.opb := rfl

@[simp] theorem drvLine_resp (l : Line) (v : Level) (s : State) : (drvLine l v s).resp = s.resp := rfl

@[simp] theorem drvLine_result (l : Line) (v : Level) (s : State) : (drvLine l v s).result = s.result := rfl

@[simp] theorem drvLine_err (l : Line) (v : Level) (s : State) : (drvLine l v s).err = s.err := rfl

@[simp] theorem drvLine_busy (l : Line) (v : Level) (s : State) : (drvLine l v s).busy = s.busy := rfl

@[simp] theorem drvLine_upc (l : Line) (v : Level) (s : State) : (drvLine l v s).upc = s.upc := rfl

@[simp] theorem drvLine_pcnt (l : Line) (v : Level) (s : State) : (drvLine l v s).pcnt = s.pcnt := rfl

@[simp] theorem drvLine_cfg (l : Line) (v : Level) (s : State) : (drvLine l v s).cfg = s.cfg := rfl

@[simp] theorem drvLine_hostIn (l : Line) (v : Level) (s : State) : (drvLine l v s).hostIn = s.hostIn := rfl

@[simp] theorem drvLine_pinIn (l : Line) (v : Level) (s : State) : (drvLine l v s).pinIn = s.pinIn := rfl

@[simp] theorem drvLine_busIn (l : Line) (v : Level) (s : State) : (drvLine l v s).busIn = s.busIn := rfl

@[simp] theorem drvLine_draws (l : Line) (v : Level) (s : State) : (drvLine l v s).draws = s.draws := rfl

@[simp] theorem drvLine_trace (l : Line) (v : Level) (s : State) : (drvLine l v s).trace = s.trace ++ [.drv l v] := rfl

@[simp] theorem drvLine_responses (l : Line) (v : Level) (s : State) : (drvLine l v s).responses = s.responses := rfl

/-! ### busDirection -/

@[simp] theorem busDirection_mode (d : Direction) (s : State) : (busDirection d s).mode = s.mode := rfl

@[simp] theorem busDirection_entered (d : Direction) (s : State) : (busDirection d s).entered = s.entered := rfl

@[simp] theorem busDirection_dir (d : Direction) (s : State) : (busDirection d s).dir = s.dir := rfl

@[simp] theorem busDirection_out (d : Direction) (s : State) : (busDirection d s).out = s.out := rfl

@[simp] theorem busDirection_busDir (d : Direction) (s : State) : (busDirection d s).busDir = d := rfl

@[simp] theorem busDirection_busOut (d : Direction) (s : State) : (busDirection d s).busOut = s.busOut := rfl

@[simp] theorem busDirection_opc (d : Direction) (s : State) : (busDirection d s).opc = s.opc := rfl

@[simp] theorem busDirection_opa (d : Direction) (s : State) : (busDirection d s).opa = s.opa := rfl

@[simp] theorem busDirection_opb (d : Direction) (s : State) : (busDirection d s).opb = s.opb := rfl

@[simp] theorem busDirection_resp (d : Direction) (s : State) : (busDirection d s).resp = s.resp := rfl

@[simp] theorem busDirection_result (d : Direction) (s : State) : (busDirection d s).result = s.result := rfl

@[simp] theorem busDirection_err (d : Direction) (s : State) : (busDirection d s).err = s.err := rfl

@[simp] theorem busDirection_busy (d : Direction) (s : State) : (busDirection d s).busy = s.busy := rfl

@[simp] theorem busDirection_upc (d : Direction) (s : State) : (busDirection d s).upc = s.upc := rfl

@[simp] theorem busDirection_pcnt (d : Direction) (s : State) : (busDirection d s).pcnt = s.pcnt := rfl

@[simp] theorem busDirection_cfg (d : Direction) (s : State) : (busDirection d s).cfg = s.cfg := rfl

@[simp] theorem busDirection_hostIn (d : Direction) (s : State) : (busDirection d s).hostIn = s.hostIn := rfl

@[simp] theorem busDirection_pinIn (d : Direction) (s : State) : (busDirection d s).pinIn = s.pinIn := rfl

@[simp] theorem busDirection_busIn (d : Direction) (s : State) : (busDirection d s).busIn = s.busIn := rfl

@[simp] theorem busDirection_draws (d : Direction) (s : State) : (busDirection d s).draws = s.draws := rfl

@[simp] theorem busDirection_trace (d : Direction) (s : State) : (busDirection d s).trace = s.trace ++ [.bdir d] := rfl

@[simp] theorem busDirection_responses (d : Direction) (s : State) : (busDirection d s).responses = s.responses := rfl

/-! ### busDrive -/

@[simp] theorem busDrive_mode (b : Byte) (s : State) : (busDrive b s).mode = s.mode := rfl

@[simp] theorem busDrive_entered (b : Byte) (s : State) : (busDrive b s).entered = s.entered := rfl

@[simp] theorem busDrive_dir (b : Byte) (s : State) : (busDrive b s).dir = s.dir := rfl

@[simp] theorem busDrive_out (b : Byte) (s : State) : (busDrive b s).out = s.out := rfl

@[simp] theorem busDrive_busDir (b : Byte) (s : State) : (busDrive b s).busDir = s.busDir := rfl

@[simp] theorem busDrive_busOut (b : Byte) (s : State) : (busDrive b s).busOut = b := rfl

@[simp] theorem busDrive_opc (b : Byte) (s : State) : (busDrive b s).opc = s.opc := rfl

@[simp] theorem busDrive_opa (b : Byte) (s : State) : (busDrive b s).opa = s.opa := rfl

@[simp] theorem busDrive_opb (b : Byte) (s : State) : (busDrive b s).opb = s.opb := rfl

@[simp] theorem busDrive_resp (b : Byte) (s : State) : (busDrive b s).resp = s.resp := rfl

@[simp] theorem busDrive_result (b : Byte) (s : State) : (busDrive b s).result = s.result := rfl

@[simp] theorem busDrive_err (b : Byte) (s : State) : (busDrive b s).err = s.err := rfl

@[simp] theorem busDrive_busy (b : Byte) (s : State) : (busDrive b s).busy = s.busy := rfl

@[simp] theorem busDrive_upc (b : Byte) (s : State) : (busDrive b s).upc = s.upc := rfl

@[simp] theorem busDrive_pcnt (b : Byte) (s : State) : (busDrive b s).pcnt = s.pcnt := rfl

@[simp] theorem busDrive_cfg (b : Byte) (s : State) : (busDrive b s).cfg = s.cfg := rfl

@[simp] theorem busDrive_hostIn (b : Byte) (s : State) : (busDrive b s).hostIn = s.hostIn := rfl

@[simp] theorem busDrive_pinIn (b : Byte) (s : State) : (busDrive b s).pinIn = s.pinIn := rfl

@[simp] theorem busDrive_busIn (b : Byte) (s : State) : (busDrive b s).busIn = s.busIn := rfl

@[simp] theorem busDrive_draws (b : Byte) (s : State) : (busDrive b s).draws = s.draws := rfl

@[simp] theorem busDrive_trace (b : Byte) (s : State) : (busDrive b s).trace = s.trace ++ [.bdrv b] := rfl

@[simp] theorem busDrive_responses (b : Byte) (s : State) : (busDrive b s).responses = s.responses := rfl

/-! ### waitUs -/

@[simp] theorem waitUs_mode (n : Nat) (s : State) : (waitUs n s).mode = s.mode := rfl

@[simp] theorem waitUs_entered (n : Nat) (s : State) : (waitUs n s).entered = s.entered := rfl

@[simp] theorem waitUs_dir (n : Nat) (s : State) : (waitUs n s).dir = s.dir := rfl

@[simp] theorem waitUs_out (n : Nat) (s : State) : (waitUs n s).out = s.out := rfl

@[simp] theorem waitUs_busDir (n : Nat) (s : State) : (waitUs n s).busDir = s.busDir := rfl

@[simp] theorem waitUs_busOut (n : Nat) (s : State) : (waitUs n s).busOut = s.busOut := rfl

@[simp] theorem waitUs_opc (n : Nat) (s : State) : (waitUs n s).opc = s.opc := rfl

@[simp] theorem waitUs_opa (n : Nat) (s : State) : (waitUs n s).opa = s.opa := rfl

@[simp] theorem waitUs_opb (n : Nat) (s : State) : (waitUs n s).opb = s.opb := rfl

@[simp] theorem waitUs_resp (n : Nat) (s : State) : (waitUs n s).resp = s.resp := rfl

@[simp] theorem waitUs_result (n : Nat) (s : State) : (waitUs n s).result = s.result := rfl

@[simp] theorem waitUs_err (n : Nat) (s : State) : (waitUs n s).err = s.err := rfl

@[simp] theorem waitUs_busy (n : Nat) (s : State) : (waitUs n s).busy = s.busy := rfl

@[simp] theorem waitUs_upc (n : Nat) (s : State) : (waitUs n s).upc = s.upc := rfl

@[simp] theorem waitUs_pcnt (n : Nat) (s : State) : (waitUs n s).pcnt = s.pcnt := rfl

@[simp] theorem waitUs_cfg (n : Nat) (s : State) : (waitUs n s).cfg = s.cfg := rfl

@[simp] theorem waitUs_hostIn (n : Nat) (s : State) : (waitUs n s).hostIn = s.hostIn := rfl

@[simp] theorem waitUs_pinIn (n : Nat) (s : State) : (waitUs n s).pinIn = s.pinIn := rfl

@[simp] theorem waitUs_busIn (n : Nat) (s : State) : (waitUs n s).busIn = s.busIn := rfl

@[simp] theorem waitUs_draws (n : Nat) (s : State) : (waitUs n s).draws = s.draws := rfl

@[simp] theorem waitUs_trace (n : Nat) (s : State) : (waitUs n s).trace = s.trace ++ [.waitUs n] := rfl

@[simp] theorem waitUs_responses (n : Nat) (s : State) : (waitUs n s).responses = s.responses := rfl

/-! ### waitMs -/

@[simp] theorem waitMs_mode (n : Nat) (s : State) : (waitMs n s).mode = s.mode := rfl

@[simp] theorem waitMs_entered (n : Nat) (s : State) : (waitMs n s).entered = s.entered := rfl

@[simp] theorem waitMs_dir (n : Nat) (s : State) : (waitMs n s).dir = s.dir := rfl

@[simp] theorem waitMs_out (n : Nat) (s : State) : (waitMs n s).out = s.out := rfl

@[simp] theorem waitMs_busDir (n : Nat) (s : State) : (waitMs n s).busDir = s.busDir := rfl

@[simp] theorem waitMs_busOut (n : Nat) (s : State) : (waitMs n s).busOut = s.busOut := rfl

@[simp] theorem waitMs_opc (n : Nat) (s : State) : (waitMs n s).opc = s.opc := rfl

@[simp] theorem waitMs_opa (n : Nat) (s : State) : (waitMs n s).opa = s.opa := rfl

@[simp] theorem waitMs_opb (n : Nat) (s : State) : (waitMs n s).opb = s.opb := rfl

@[simp] theorem waitMs_resp (n : Nat) (s : State) : (waitMs n s).resp = s.resp := rfl

@[simp] theorem waitMs_result (n : Nat) (s : State) : (waitMs n s).result = s.result := rfl

@[simp] theorem waitMs_err (n : Nat) (s : State) : (waitMs n s).err = s.err := rfl

@[simp] theorem waitMs_busy (n : Nat) (s : State) : (waitMs n s).busy = s.busy := rfl

@[simp] theorem waitMs_upc (n : Nat) (s : State) : (waitMs n s).upc = s.upc := rfl

@[simp] theorem waitMs_pcnt (n : Nat) (s : State) : (waitMs n s).pcnt = s.pcnt := rfl

@[simp] theorem waitMs_cfg (n : Nat) (s : State) : (waitMs n s).cfg = s.cfg := rfl

@[simp] theorem waitMs_hostIn (n : Nat) (s : State) : (waitMs n s).hostIn = s.hostIn := rfl

@[simp] theorem waitMs_pinIn (n : Nat) (s : State) : (waitMs n s).pinIn = s.pinIn := rfl

@[simp] theorem waitMs_busIn (n : Nat) (s : State) : (waitMs n s).busIn = s.busIn := rfl

@[simp] theorem waitMs_draws (n : Nat) (s : State) : (waitMs n s).draws = s.draws := rfl

@[simp] theorem waitMs_trace (n : Nat) (s : State) : (waitMs n s).trace = s.trace ++ [.waitMs n] := rfl

@[simp] theorem waitMs_responses (n : Nat) (s : State) : (waitMs n s).responses = s.responses := rfl

/-! ### countLow -/

@[simp] theorem countLow_mode (s : State) : (countLow s).mode = s.mode := rfl

@[simp] theorem countLow_entered (s : State) : (countLow s).entered = s.entered := rfl

@[simp] theorem countLow_dir (s : State) : (countLow s).dir = s.dir := rfl

@[simp] theorem countLow_out (s : State) : (countLow s).out = s.out := rfl

@[simp] theorem countLow_busDir (s : State) : (countLow s).busDir = s.busDir := rfl

@[simp] theorem countLow_busOut (s : State) : (countLow s).busOut = s.busOut := rfl

@[simp] theorem countLow_opc (s : State) : (countLow s).opc = s.opc := rfl

@[simp] theorem countLow_opa (s : State) : (countLow s).opa = s.opa := rfl

@[simp] theorem countLow_opb (s : State) : (countLow s).opb = s.opb := rfl

@[simp] theorem countLow_resp (s : State) : (countLow s).resp = s.resp := rfl

@[simp] theorem countLow_result (s : State) : (countLow s).result = s.result := rfl

@[simp] theorem countLow_err (s : State) : (countLow s).err = s.err := rfl

@[simp] theorem countLow_busy (s : State) : (countLow s).busy = s.busy := rfl

@[simp] theorem countLow_upc (s : State) : (countLow s).upc = s.upc := rfl

@[simp] theorem countLow_pcnt (s : State) : (countLow s).pcnt = s.pcnt + 1 := rfl

@[simp] theorem countLow_cfg (s : State) : (countLow s).cfg = s.cfg := rfl

@[simp] theorem countLow_hostIn (s : State) : (countLow s).hostIn = s.hostIn := rfl

@[simp] theorem countLow_pinIn (s : State) : (countLow s).pinIn = s.pinIn := rfl

@[simp] theorem countLow_busIn (s : State) : (countLow s).busIn = s.busIn := rfl

@[simp] theorem countLow_draws (s : State) : (countLow s).draws = s.draws := rfl

@[simp] theorem countLow_trace (s : State) : (countLow s).trace = s.trace := rfl

@[simp] theorem countLow_responses (s : State) : (countLow s).responses = s.responses := rfl

/-! ### advance -/

@[simp] theorem advance_mode (s : State) : (advance s).mode = s.mode := rfl

@[simp] theorem advance_entered (s : State) : (advance s).entered = s.entered := rfl

@[simp] theorem advance_dir (s : State) : (advance s).dir = s.dir := rfl

@[simp] theorem advance_out (s : State) : (advance s).out = s.out := rfl

@[simp] theorem advance_busDir (s : State) : (advance s).busDir = s.busDir := rfl

@[simp] theorem advance_busOut (s : State) : (advance s).busOut = s.busOut := rfl

@[simp] theorem advance_opc (s : State) : (advance s).opc = s.opc := rfl

@[simp] theorem advance_opa (s : State) : (advance s).opa = s.opa := rfl

@[simp] theorem advance_opb (s : State) : (advance s).opb = s.opb := rfl

@[simp] theorem advance_resp (s : State) : (advance s).resp = s.resp := rfl

@[simp] theorem advance_result (s : State) : (advance s).result = s.result := rfl

@[simp] theorem advance_err (s : State) : (advance s).err = s.err := rfl

@[simp] theorem advance_busy (s : State) : (advance s).busy = s.busy := rfl

@[simp] theorem advance_upc (s : State) : (advance s).upc = s.upc + 1#9 := rfl

@[simp] theorem advance_pcnt (s : State) : (advance s).pcnt = s.pcnt := rfl

@[simp] theorem advance_cfg (s : State) : (advance s).cfg = s.cfg := rfl

@[simp] theorem advance_hostIn (s : State) : (advance s).hostIn = s.hostIn := rfl

@[simp] theorem advance_pinIn (s : State) : (advance s).pinIn = s.pinIn := rfl

@[simp] theorem advance_busIn (s : State) : (advance s).busIn = s.busIn := rfl

@[simp] theorem advance_draws (s : State) : (advance s).draws = s.draws := rfl

@[simp] theorem advance_trace (s : State) : (advance s).trace = s.trace := rfl

@[simp] theorem advance_responses (s : State) : (advance s).responses = s.responses := rfl

/-! ### accept -/

@[simp] theorem accept_mode (w : CmdWord) (s : State) : (accept w s).mode = s.mode := rfl

@[simp] theorem accept_entered (w : CmdWord) (s : State) : (accept w s).entered = s.entered := rfl

@[simp] theorem accept_dir (w : CmdWord) (s : State) : (accept w s).dir = s.dir := rfl

@[simp] theorem accept_out (w : CmdWord) (s : State) : (accept w s).out = s.out := rfl

@[simp] theorem accept_busDir (w : CmdWord) (s : State) : (accept w s).busDir = s.busDir := rfl

@[simp] theorem accept_busOut (w : CmdWord) (s : State) : (accept w s).busOut = s.busOut := rfl

@[simp] theorem accept_opc (w : CmdWord) (s : State) : (accept w s).opc = opField w := rfl

@[simp] theorem accept_opa (w : CmdWord) (s : State) : (accept w s).opa = aField w := rfl

@[simp] theorem accept_opb (w : CmdWord) (s : State) : (accept w s).opb = bField w := rfl

@[simp] theorem accept_resp (w : CmdWord) (s : State) : (accept w s).resp = s.resp := rfl

@[simp] theorem accept_result (w : CmdWord) (s : State) : (accept w s).result = s.result := rfl

@[simp] theorem accept_err (w : CmdWord) (s : State) : (accept w s).err = s.err := rfl

@[simp] theorem accept_busy (w : CmdWord) (s : State) : (accept w s).busy = true := rfl

@[simp] theorem accept_upc (w : CmdWord) (s : State) : (accept w s).upc = 0#9 := rfl

@[simp] theorem accept_pcnt (w : CmdWord) (s : State) : (accept w s).pcnt = s.pcnt := rfl

@[simp] theorem accept_cfg (w : CmdWord) (s : State) : (accept w s).cfg = s.cfg := rfl

@[simp] theorem accept_hostIn (w : CmdWord) (s : State) : (accept w s).hostIn = s.hostIn := rfl

@[simp] theorem accept_pinIn (w : CmdWord) (s : State) : (accept w s).pinIn = s.pinIn := rfl

@[simp] theorem accept_busIn (w : CmdWord) (s : State) : (accept w s).busIn = s.busIn := rfl

@[simp] theorem accept_draws (w : CmdWord) (s : State) : (accept w s).draws = s.draws := rfl

@[simp] theorem accept_trace (w : CmdWord) (s : State) : (accept w s).trace = s.trace := rfl

@[simp] theorem accept_responses (w : CmdWord) (s : State) : (accept w s).responses = s.responses := rfl

/-! ### complete -/

@[simp] theorem complete_mode (e : ErrCode) (s : State) : (complete e s).mode = s.mode := rfl

@[simp] theorem complete_entered (e : ErrCode) (s : State) : (complete e s).entered = s.entered := rfl

@[simp] theorem complete_dir (e : ErrCode) (s : State) : (complete e s).dir = s.dir := rfl

@[simp] theorem complete_out (e : ErrCode) (s : State) : (complete e s).out = s.out := rfl

@[simp] theorem complete_busDir (e : ErrCode) (s : State) : (complete e s).busDir = s.busDir := rfl

@[simp] theorem complete_busOut (e : ErrCode) (s : State) : (complete e s).busOut = s.busOut := rfl

@[simp] theorem complete_opc (e : ErrCode) (s : State) : (complete e s).opc = s.opc := rfl

@[simp] theorem complete_opa (e : ErrCode) (s : State) : (complete e s).opa = s.opa := rfl

@[simp] theorem complete_opb (e : ErrCode) (s : State) : (complete e s).opb = s.opb := rfl

@[simp] theorem complete_resp (e : ErrCode) (s : State) : (complete e s).resp = s.resp := rfl

@[simp] theorem complete_result (e : ErrCode) (s : State) : (complete e s).result = s.result := rfl

@[simp] theorem complete_err (e : ErrCode) (s : State) : (complete e s).err = e := rfl

@[simp] theorem complete_busy (e : ErrCode) (s : State) : (complete e s).busy = false := rfl

@[simp] theorem complete_upc (e : ErrCode) (s : State) : (complete e s).upc = 0#9 := rfl

@[simp] theorem complete_pcnt (e : ErrCode) (s : State) : (complete e s).pcnt = s.pcnt := rfl

@[simp] theorem complete_cfg (e : ErrCode) (s : State) : (complete e s).cfg = s.cfg := rfl

@[simp] theorem complete_hostIn (e : ErrCode) (s : State) : (complete e s).hostIn = s.hostIn := rfl

@[simp] theorem complete_pinIn (e : ErrCode) (s : State) : (complete e s).pinIn = s.pinIn := rfl

@[simp] theorem complete_busIn (e : ErrCode) (s : State) : (complete e s).busIn = s.busIn := rfl

@[simp] theorem complete_draws (e : ErrCode) (s : State) : (complete e s).draws = s.draws := rfl

@[simp] theorem complete_trace (e : ErrCode) (s : State) : (complete e s).trace = s.trace := rfl

@[simp] theorem complete_responses (e : ErrCode) (s : State) : (complete e s).responses = s.responses ++ [⟨e, s.result⟩] := rfl

/-! ### useLevel: only the environment's answers and the free values move -/

@[simp] theorem useLevel_mode (l : Line) (s : State) : (useLevel l s).mode = s.mode := by
  unfold useLevel; split <;> rfl

@[simp] theorem useLevel_entered (l : Line) (s : State) : (useLevel l s).entered = s.entered := by
  unfold useLevel; split <;> rfl

@[simp] theorem useLevel_dir (l : Line) (s : State) : (useLevel l s).dir = s.dir := by
  unfold useLevel; split <;> rfl

@[simp] theorem useLevel_out (l : Line) (s : State) : (useLevel l s).out = s.out := by
  unfold useLevel; split <;> rfl

@[simp] theorem useLevel_busDir (l : Line) (s : State) : (useLevel l s).busDir = s.busDir := by
  unfold useLevel; split <;> rfl

@[simp] theorem useLevel_busOut (l : Line) (s : State) : (useLevel l s).busOut = s.busOut := by
  unfold useLevel; split <;> rfl

@[simp] theorem useLevel_opc (l : Line) (s : State) : (useLevel l s).opc = s.opc := by
  unfold useLevel; split <;> rfl

@[simp] theorem useLevel_opa (l : Line) (s : State) : (useLevel l s).opa = s.opa := by
  unfold useLevel; split <;> rfl

@[simp] theorem useLevel_opb (l : Line) (s : State) : (useLevel l s).opb = s.opb := by
  unfold useLevel; split <;> rfl

@[simp] theorem useLevel_resp (l : Line) (s : State) : (useLevel l s).resp = s.resp := by
  unfold useLevel; split <;> rfl

@[simp] theorem useLevel_result (l : Line) (s : State) : (useLevel l s).result = s.result := by
  unfold useLevel; split <;> rfl

@[simp] theorem useLevel_err (l : Line) (s : State) : (useLevel l s).err = s.err := by
  unfold useLevel; split <;> rfl

@[simp] theorem useLevel_busy (l : Line) (s : State) : (useLevel l s).busy = s.busy := by
  unfold useLevel; split <;> rfl

@[simp] theorem useLevel_upc (l : Line) (s : State) : (useLevel l s).upc = s.upc := by
  unfold useLevel; split <;> rfl

@[simp] theorem useLevel_pcnt (l : Line) (s : State) : (useLevel l s).pcnt = s.pcnt := by
  unfold useLevel; split <;> rfl

@[simp] theorem useLevel_cfg (l : Line) (s : State) : (useLevel l s).cfg = s.cfg := by
  unfold useLevel; split <;> rfl

@[simp] theorem useLevel_hostIn (l : Line) (s : State) : (useLevel l s).hostIn = s.hostIn := by
  unfold useLevel; split <;> rfl

@[simp] theorem useLevel_busIn (l : Line) (s : State) : (useLevel l s).busIn = s.busIn := by
  unfold useLevel; split <;> rfl

@[simp] theorem useLevel_trace (l : Line) (s : State) : (useLevel l s).trace = s.trace := by
  unfold useLevel; split <;> rfl

@[simp] theorem useLevel_responses (l : Line) (s : State) : (useLevel l s).responses = s.responses := by
  unfold useLevel; split <;> rfl

/-! ### useByte: only the environment's answers and the free values move -/

@[simp] theorem useByte_mode (s : State) : (useByte s).mode = s.mode := by
  unfold useByte; split <;> rfl

@[simp] theorem useByte_entered (s : State) : (useByte s).entered = s.entered := by
  unfold useByte; split <;> rfl

@[simp] theorem useByte_dir (s : State) : (useByte s).dir = s.dir := by
  unfold useByte; split <;> rfl

@[simp] theorem useByte_out (s : State) : (useByte s).out = s.out := by
  unfold useByte; split <;> rfl

@[simp] theorem useByte_busDir (s : State) : (useByte s).busDir = s.busDir := by
  unfold useByte; split <;> rfl

@[simp] theorem useByte_busOut (s : State) : (useByte s).busOut = s.busOut := by
  unfold useByte; split <;> rfl

@[simp] theorem useByte_opc (s : State) : (useByte s).opc = s.opc := by
  unfold useByte; split <;> rfl

@[simp] theorem useByte_opa (s : State) : (useByte s).opa = s.opa := by
  unfold useByte; split <;> rfl

@[simp] theorem useByte_opb (s : State) : (useByte s).opb = s.opb := by
  unfold useByte; split <;> rfl

@[simp] theorem useByte_resp (s : State) : (useByte s).resp = s.resp := by
  unfold useByte; split <;> rfl

@[simp] theorem useByte_result (s : State) : (useByte s).result = s.result := by
  unfold useByte; split <;> rfl

@[simp] theorem useByte_err (s : State) : (useByte s).err = s.err := by
  unfold useByte; split <;> rfl

@[simp] theorem useByte_busy (s : State) : (useByte s).busy = s.busy := by
  unfold useByte; split <;> rfl

@[simp] theorem useByte_upc (s : State) : (useByte s).upc = s.upc := by
  unfold useByte; split <;> rfl

@[simp] theorem useByte_pcnt (s : State) : (useByte s).pcnt = s.pcnt := by
  unfold useByte; split <;> rfl

@[simp] theorem useByte_cfg (s : State) : (useByte s).cfg = s.cfg := by
  unfold useByte; split <;> rfl

@[simp] theorem useByte_hostIn (s : State) : (useByte s).hostIn = s.hostIn := by
  unfold useByte; split <;> rfl

@[simp] theorem useByte_pinIn (s : State) : (useByte s).pinIn = s.pinIn := by
  unfold useByte; split <;> rfl

@[simp] theorem useByte_trace (s : State) : (useByte s).trace = s.trace := by
  unfold useByte; split <;> rfl

@[simp] theorem useByte_responses (s : State) : (useByte s).responses = s.responses := by
  unfold useByte; split <;> rfl

/-! ### smpLine -/

@[simp] theorem smpLine_mode (l : Line) (s : State) : (smpLine l s).mode = s.mode := useLevel_mode l s

@[simp] theorem smpLine_entered (l : Line) (s : State) : (smpLine l s).entered = s.entered := useLevel_entered l s

@[simp] theorem smpLine_dir (l : Line) (s : State) : (smpLine l s).dir = s.dir := useLevel_dir l s

@[simp] theorem smpLine_out (l : Line) (s : State) : (smpLine l s).out = s.out := useLevel_out l s

@[simp] theorem smpLine_busDir (l : Line) (s : State) : (smpLine l s).busDir = s.busDir := useLevel_busDir l s

@[simp] theorem smpLine_busOut (l : Line) (s : State) : (smpLine l s).busOut = s.busOut := useLevel_busOut l s

@[simp] theorem smpLine_opc (l : Line) (s : State) : (smpLine l s).opc = s.opc := useLevel_opc l s

@[simp] theorem smpLine_opa (l : Line) (s : State) : (smpLine l s).opa = s.opa := useLevel_opa l s

@[simp] theorem smpLine_opb (l : Line) (s : State) : (smpLine l s).opb = s.opb := useLevel_opb l s

@[simp] theorem smpLine_resp (l : Line) (s : State) : (smpLine l s).resp = s.resp := useLevel_resp l s

@[simp] theorem smpLine_result (l : Line) (s : State) : (smpLine l s).result = s.result := useLevel_result l s

@[simp] theorem smpLine_err (l : Line) (s : State) : (smpLine l s).err = s.err := useLevel_err l s

@[simp] theorem smpLine_busy (l : Line) (s : State) : (smpLine l s).busy = s.busy := useLevel_busy l s

@[simp] theorem smpLine_upc (l : Line) (s : State) : (smpLine l s).upc = s.upc := useLevel_upc l s

@[simp] theorem smpLine_pcnt (l : Line) (s : State) : (smpLine l s).pcnt = s.pcnt := useLevel_pcnt l s

@[simp] theorem smpLine_cfg (l : Line) (s : State) : (smpLine l s).cfg = s.cfg := useLevel_cfg l s

@[simp] theorem smpLine_hostIn (l : Line) (s : State) : (smpLine l s).hostIn = s.hostIn := useLevel_hostIn l s

@[simp] theorem smpLine_pinIn (l : Line) (s : State) : (smpLine l s).pinIn = (useLevel l s).pinIn := rfl

@[simp] theorem smpLine_busIn (l : Line) (s : State) : (smpLine l s).busIn = s.busIn := useLevel_busIn l s

@[simp] theorem smpLine_draws (l : Line) (s : State) : (smpLine l s).draws = (useLevel l s).draws := rfl

@[simp] theorem smpLine_trace (l : Line) (s : State) : (smpLine l s).trace = s.trace ++ [.smp l (sampledLevel l s)] := rfl

@[simp] theorem smpLine_responses (l : Line) (s : State) : (smpLine l s).responses = s.responses := useLevel_responses l s

/-! ### busSample -/

@[simp] theorem busSample_mode (s : State) : (busSample s).mode = s.mode := useByte_mode s

@[simp] theorem busSample_entered (s : State) : (busSample s).entered = s.entered := useByte_entered s

@[simp] theorem busSample_dir (s : State) : (busSample s).dir = s.dir := useByte_dir s

@[simp] theorem busSample_out (s : State) : (busSample s).out = s.out := useByte_out s

@[simp] theorem busSample_busDir (s : State) : (busSample s).busDir = s.busDir := useByte_busDir s

@[simp] theorem busSample_busOut (s : State) : (busSample s).busOut = s.busOut := useByte_busOut s

@[simp] theorem busSample_opc (s : State) : (busSample s).opc = s.opc := useByte_opc s

@[simp] theorem busSample_opa (s : State) : (busSample s).opa = s.opa := useByte_opa s

@[simp] theorem busSample_opb (s : State) : (busSample s).opb = s.opb := useByte_opb s

@[simp] theorem busSample_resp (s : State) : (busSample s).resp = s.resp := useByte_resp s

@[simp] theorem busSample_result (s : State) : (busSample s).result = s.result := useByte_result s

@[simp] theorem busSample_err (s : State) : (busSample s).err = s.err := useByte_err s

@[simp] theorem busSample_busy (s : State) : (busSample s).busy = s.busy := useByte_busy s

@[simp] theorem busSample_upc (s : State) : (busSample s).upc = s.upc := useByte_upc s

@[simp] theorem busSample_pcnt (s : State) : (busSample s).pcnt = s.pcnt := useByte_pcnt s

@[simp] theorem busSample_cfg (s : State) : (busSample s).cfg = s.cfg := useByte_cfg s

@[simp] theorem busSample_hostIn (s : State) : (busSample s).hostIn = s.hostIn := useByte_hostIn s

@[simp] theorem busSample_pinIn (s : State) : (busSample s).pinIn = s.pinIn := useByte_pinIn s

@[simp] theorem busSample_busIn (s : State) : (busSample s).busIn = (useByte s).busIn := rfl

@[simp] theorem busSample_draws (s : State) : (busSample s).draws = (useByte s).draws := rfl

@[simp] theorem busSample_trace (s : State) : (busSample s).trace = s.trace ++ [.bsmp (sampledByte s)] := rfl

@[simp] theorem busSample_responses (s : State) : (busSample s).responses = s.responses := useByte_responses s

/-! ### What a sample gives and takes, by the direction and what the environment has put there -/

theorem sampledLevel_input {l : Line} {s : State} {v : Level} {rest : List Level}
    (hd : getCell s.dir l = .input) (hp : s.pinIn = v :: rest) : sampledLevel l s = v := by
  simp [sampledLevel, hd, hp]

theorem useLevel_input {l : Line} {s : State} {v : Level} {rest : List Level}
    (hd : getCell s.dir l = .input) (hp : s.pinIn = v :: rest) : useLevel l s = { s with pinIn := rest } := by
  simp [useLevel, hd, hp]

theorem sampledLevel_free {l : Line} {s : State} (h : getCell s.dir l = .output ∨ s.pinIn = []) :
    sampledLevel l s = Config.freeLevel s.draws := by
  unfold sampledLevel
  split <;> simp_all

theorem useLevel_free {l : Line} {s : State} (h : getCell s.dir l = .output ∨ s.pinIn = []) :
    useLevel l s = { s with draws := s.draws + 1 } := by
  unfold useLevel
  split <;> simp_all

theorem sampledByte_input {s : State} {b : Byte} {rest : List Byte}
    (hd : s.busDir = .input) (hb : s.busIn = b :: rest) : sampledByte s = b := by
  simp [sampledByte, hd, hb]

theorem useByte_input {s : State} {b : Byte} {rest : List Byte}
    (hd : s.busDir = .input) (hb : s.busIn = b :: rest) : useByte s = { s with busIn := rest } := by
  simp [useByte, hd, hb]

theorem sampledByte_free {s : State} (h : s.busDir = .output ∨ s.busIn = []) :
    sampledByte s = Config.freeByte s.draws := by
  unfold sampledByte
  split <;> simp_all

theorem useByte_free {s : State} (h : s.busDir = .output ∨ s.busIn = []) :
    useByte s = { s with draws := s.draws + 1 } := by
  unfold useByte
  split <;> simp_all

/-! ### Reset -/

@[simp] theorem resetEngine_mode (s : State) : (resetEngine s).mode = .unselected := rfl

@[simp] theorem resetEngine_entered (s : State) : (resetEngine s).entered = false := rfl

@[simp] theorem resetEngine_dir (s : State) : (resetEngine s).dir = resetDir := rfl

@[simp] theorem resetEngine_out (s : State) : (resetEngine s).out = resetOut s.cfg := rfl

@[simp] theorem resetEngine_busDir (s : State) : (resetEngine s).busDir = .input := rfl

@[simp] theorem resetEngine_busOut (s : State) : (resetEngine s).busOut = 0x00#8 := rfl

@[simp] theorem resetEngine_opc (s : State) : (resetEngine s).opc = 0x00#8 := rfl

@[simp] theorem resetEngine_opa (s : State) : (resetEngine s).opa = 0x00#8 := rfl

@[simp] theorem resetEngine_opb (s : State) : (resetEngine s).opb = 0x00#8 := rfl

@[simp] theorem resetEngine_resp (s : State) : (resetEngine s).resp = 0x00#8 := rfl

@[simp] theorem resetEngine_result (s : State) : (resetEngine s).result = 0x00#8 := rfl

@[simp] theorem resetEngine_err (s : State) : (resetEngine s).err = .ok := rfl

@[simp] theorem resetEngine_busy (s : State) : (resetEngine s).busy = false := rfl

@[simp] theorem resetEngine_upc (s : State) : (resetEngine s).upc = 0#9 := rfl

@[simp] theorem resetEngine_pcnt (s : State) : (resetEngine s).pcnt = 0 := rfl

@[simp] theorem resetEngine_cfg (s : State) : (resetEngine s).cfg = s.cfg := rfl

@[simp] theorem resetEngine_hostIn (s : State) : (resetEngine s).hostIn = s.hostIn := rfl

@[simp] theorem resetEngine_pinIn (s : State) : (resetEngine s).pinIn = s.pinIn := rfl

@[simp] theorem resetEngine_busIn (s : State) : (resetEngine s).busIn = s.busIn := rfl

@[simp] theorem resetEngine_draws (s : State) : (resetEngine s).draws = s.draws := rfl

@[simp] theorem resetEngine_trace (s : State) : (resetEngine s).trace = s.trace := rfl

@[simp] theorem resetEngine_responses (s : State) : (resetEngine s).responses = s.responses := rfl

@[simp] theorem abandon_mode (k : Nat) (s t : State) : (abandon k s t).mode = .unselected := rfl

@[simp] theorem abandon_entered (k : Nat) (s t : State) : (abandon k s t).entered = false := rfl

@[simp] theorem abandon_dir (k : Nat) (s t : State) : (abandon k s t).dir = resetDir := rfl

@[simp] theorem abandon_out (k : Nat) (s t : State) : (abandon k s t).out = resetOut s.cfg := rfl

@[simp] theorem abandon_busDir (k : Nat) (s t : State) : (abandon k s t).busDir = .input := rfl

@[simp] theorem abandon_busOut (k : Nat) (s t : State) : (abandon k s t).busOut = 0x00#8 := rfl

@[simp] theorem abandon_opc (k : Nat) (s t : State) : (abandon k s t).opc = 0x00#8 := rfl

@[simp] theorem abandon_opa (k : Nat) (s t : State) : (abandon k s t).opa = 0x00#8 := rfl

@[simp] theorem abandon_opb (k : Nat) (s t : State) : (abandon k s t).opb = 0x00#8 := rfl

@[simp] theorem abandon_resp (k : Nat) (s t : State) : (abandon k s t).resp = 0x00#8 := rfl

@[simp] theorem abandon_result (k : Nat) (s t : State) : (abandon k s t).result = 0x00#8 := rfl

@[simp] theorem abandon_err (k : Nat) (s t : State) : (abandon k s t).err = .ok := rfl

@[simp] theorem abandon_busy (k : Nat) (s t : State) : (abandon k s t).busy = false := rfl

@[simp] theorem abandon_upc (k : Nat) (s t : State) : (abandon k s t).upc = 0#9 := rfl

@[simp] theorem abandon_pcnt (k : Nat) (s t : State) : (abandon k s t).pcnt = 0 := rfl

@[simp] theorem abandon_cfg (k : Nat) (s t : State) : (abandon k s t).cfg = s.cfg := rfl

@[simp] theorem abandon_hostIn (k : Nat) (s t : State) : (abandon k s t).hostIn = s.hostIn := rfl

@[simp] theorem abandon_draws (k : Nat) (s t : State) : (abandon k s t).draws = t.draws := rfl

@[simp] theorem abandon_responses (k : Nat) (s t : State) : (abandon k s t).responses = s.responses := rfl

@[simp] theorem abandon_trace (k : Nat) (s t : State) :
    (abandon k s t).trace = s.trace ++ (t.trace.drop s.trace.length).take k := rfl

end Sys2Proof.Machine
end

