-- ==== Sys2Proof/Laws/Ops.lean ====
section
/-!
SUPPORT. What the shared operations can do, said once: the busy-wait, the sequencer, and a whole operation.
-/

namespace Sys2Proof.Machine

open Sys2Proof.Safety

/-! ### The busy-wait (R186): registers it never writes -/

@[simp] theorem pollLoop_mode (l : Line) (n : Nat) (s : State) : (pollLoop l n s).1.mode = s.mode := by
  induction n generalizing s with
  | zero => unfold pollLoop; split <;> simp
  | succ n ih => unfold pollLoop; split <;> simp [ih]

@[simp] theorem pollLoop_entered (l : Line) (n : Nat) (s : State) : (pollLoop l n s).1.entered = s.entered := by
  induction n generalizing s with
  | zero => unfold pollLoop; split <;> simp
  | succ n ih => unfold pollLoop; split <;> simp [ih]

@[simp] theorem pollLoop_dir (l : Line) (n : Nat) (s : State) : (pollLoop l n s).1.dir = s.dir := by
  induction n generalizing s with
  | zero => unfold pollLoop; split <;> simp
  | succ n ih => unfold pollLoop; split <;> simp [ih]

@[simp] theorem pollLoop_out (l : Line) (n : Nat) (s : State) : (pollLoop l n s).1.out = s.out := by
  induction n generalizing s with
  | zero => unfold pollLoop; split <;> simp
  | succ n ih => unfold pollLoop; split <;> simp [ih]

@[simp] theorem pollLoop_busDir (l : Line) (n : Nat) (s : State) : (pollLoop l n s).1.busDir = s.busDir := by
  induction n generalizing s with
  | zero => unfold pollLoop; split <;> simp
  | succ n ih => unfold pollLoop; split <;> simp [ih]

@[simp] theorem pollLoop_busOut (l : Line) (n : Nat) (s : State) : (pollLoop l n s).1.busOut = s.busOut := by
  induction n generalizing s with
  | zero => unfold pollLoop; split <;> simp
  | succ n ih => unfold pollLoop; split <;> simp [ih]

@[simp] theorem pollLoop_opc (l : Line) (n : Nat) (s : State) : (pollLoop l n s).1.opc = s.opc := by
  induction n generalizing s with
  | zero => unfold pollLoop; split <;> simp
  | succ n ih => unfold pollLoop; split <;> simp [ih]

@[simp] theorem pollLoop_opa (l : Line) (n : Nat) (s : State) : (pollLoop l n s).1.opa = s.opa := by
  induction n generalizing s with
  | zero => unfold pollLoop; split <;> simp
  | succ n ih => unfold pollLoop; split <;> simp [ih]

@[simp] theorem pollLoop_opb (l : Line) (n : Nat) (s : State) : (pollLoop l n s).1.opb = s.opb := by
  induction n generalizing s with
  | zero => unfold pollLoop; split <;> simp
  | succ n ih => unfold pollLoop; split <;> simp [ih]

@[simp] theorem pollLoop_resp (l : Line) (n : Nat) (s : State) : (pollLoop l n s).1.resp = s.resp := by
  induction n generalizing s with
  | zero => unfold pollLoop; split <;> simp
  | succ n ih => unfold pollLoop; split <;> simp [ih]

@[simp] theorem pollLoop_result (l : Line) (n : Nat) (s : State) : (pollLoop l n s).1.result = s.result := by
  induction n generalizing s with
  | zero => unfold pollLoop; split <;> simp
  | succ n ih => unfold pollLoop; split <;> simp [ih]

@[simp] theorem pollLoop_err (l : Line) (n : Nat) (s : State) : (pollLoop l n s).1.err = s.err := by
  induction n generalizing s with
  | zero => unfold pollLoop; split <;> simp
  | succ n ih => unfold pollLoop; split <;> simp [ih]

@[simp] theorem pollLoop_busy (l : Line) (n : Nat) (s : State) : (pollLoop l n s).1.busy = s.busy := by
  induction n generalizing s with
  | zero => unfold pollLoop; split <;> simp
  | succ n ih => unfold pollLoop; split <;> simp [ih]

@[simp] theorem pollLoop_upc (l : Line) (n : Nat) (s : State) : (pollLoop l n s).1.upc = s.upc := by
  induction n generalizing s with
  | zero => unfold pollLoop; split <;> simp
  | succ n ih => unfold pollLoop; split <;> simp [ih]

@[simp] theorem pollLoop_cfg (l : Line) (n : Nat) (s : State) : (pollLoop l n s).1.cfg = s.cfg := by
  induction n generalizing s with
  | zero => unfold pollLoop; split <;> simp
  | succ n ih => unfold pollLoop; split <;> simp [ih]

@[simp] theorem pollLoop_hostIn (l : Line) (n : Nat) (s : State) : (pollLoop l n s).1.hostIn = s.hostIn := by
  induction n generalizing s with
  | zero => unfold pollLoop; split <;> simp
  | succ n ih => unfold pollLoop; split <;> simp [ih]

@[simp] theorem pollLoop_busIn (l : Line) (n : Nat) (s : State) : (pollLoop l n s).1.busIn = s.busIn := by
  induction n generalizing s with
  | zero => unfold pollLoop; split <;> simp
  | succ n ih => unfold pollLoop; split <;> simp [ih]

@[simp] theorem pollLoop_responses (l : Line) (n : Nat) (s : State) : (pollLoop l n s).1.responses = s.responses := by
  induction n generalizing s with
  | zero => unfold pollLoop; split <;> simp
  | succ n ih => unfold pollLoop; split <;> simp [ih]

@[simp] theorem poll_mode (l : Line) (s : State) : (poll l s).1.mode = s.mode := by simp [poll]

@[simp] theorem poll_entered (l : Line) (s : State) : (poll l s).1.entered = s.entered := by simp [poll]

@[simp] theorem poll_dir (l : Line) (s : State) : (poll l s).1.dir = s.dir := by simp [poll]

@[simp] theorem poll_out (l : Line) (s : State) : (poll l s).1.out = s.out := by simp [poll]

@[simp] theorem poll_busDir (l : Line) (s : State) : (poll l s).1.busDir = s.busDir := by simp [poll]

@[simp] theorem poll_busOut (l : Line) (s : State) : (poll l s).1.busOut = s.busOut := by simp [poll]

@[simp] theorem poll_opc (l : Line) (s : State) : (poll l s).1.opc = s.opc := by simp [poll]

@[simp] theorem poll_opa (l : Line) (s : State) : (poll l s).1.opa = s.opa := by simp [poll]

@[simp] theorem poll_opb (l : Line) (s : State) : (poll l s).1.opb = s.opb := by simp [poll]

@[simp] theorem poll_resp (l : Line) (s : State) : (poll l s).1.resp = s.resp := by simp [poll]

@[simp] theorem poll_result (l : Line) (s : State) : (poll l s).1.result = s.result := by simp [poll]

@[simp] theorem poll_err (l : Line) (s : State) : (poll l s).1.err = s.err := by simp [poll]

@[simp] theorem poll_busy (l : Line) (s : State) : (poll l s).1.busy = s.busy := by simp [poll]

@[simp] theorem poll_upc (l : Line) (s : State) : (poll l s).1.upc = s.upc := by simp [poll]

@[simp] theorem poll_cfg (l : Line) (s : State) : (poll l s).1.cfg = s.cfg := by simp [poll]

@[simp] theorem poll_hostIn (l : Line) (s : State) : (poll l s).1.hostIn = s.hostIn := by simp [poll]

@[simp] theorem poll_busIn (l : Line) (s : State) : (poll l s).1.busIn = s.busIn := by simp [poll]

@[simp] theorem poll_responses (l : Line) (s : State) : (poll l s).1.responses = s.responses := by simp [poll]

/-! ### The busy-wait: how it ends -/

/-- m Low answers and then a High one, with m within what is left: done, with m Low samples counted. -/
theorem pollLoop_ready (l : Line) (m n : Nat) (s : State) (rest : List Level)
    (hd : getCell s.dir l = .input) (hp : s.pinIn = List.replicate m .low ++ .high :: rest) (hm : m ≤ n) :
    pollLoop l n s = ({ s with
      pinIn := rest, pcnt := s.pcnt + m
      trace := s.trace ++ (List.replicate m [Event.smp l .low, .waitUs s.cfg.tPollUs]).flatten ++
        [.smp l .high] }, true) := by
  induction m generalizing n s with
  | zero =>
    have hs : sampledLevel l s = .high := sampledLevel_input hd hp
    have hu := useLevel_input hd hp
    cases n <;> simp [pollLoop, hs, smpLine, hu]
  | succ m ih =>
    obtain ⟨k, rfl⟩ : ∃ k, n = k + 1 := ⟨n - 1, by omega⟩
    have hp' : s.pinIn = Level.low :: (List.replicate m .low ++ .high :: rest) := by simpa [List.replicate_succ] using hp
    have hs : sampledLevel l s = .low := sampledLevel_input hd hp'
    have hu := useLevel_input hd hp'
    have := ih k (waitUs s.cfg.tPollUs (countLow (smpLine l s))) (by simpa using hd) (by simp [hu]) (by omega)
    simp only [pollLoop, hs]
    rw [this]
    simp [waitUs, countLow, smpLine, hu, hs, List.replicate_succ, Nat.add_assoc, Nat.add_comm 1 m]

/-- Low answers for every sample that is left: time-out, with all of them counted and no wait after the last. -/
theorem pollLoop_timeout (l : Line) (n : Nat) (s : State) (rest : List Level)
    (hd : getCell s.dir l = .input) (hp : s.pinIn = List.replicate (n + 1) .low ++ rest) :
    pollLoop l n s = ({ s with
      pinIn := rest, pcnt := s.pcnt + (n + 1)
      trace := s.trace ++ (List.replicate n [Event.smp l .low, .waitUs s.cfg.tPollUs]).flatten ++
        [.smp l .low] }, false) := by
  induction n generalizing s with
  | zero =>
    have hp' : s.pinIn = Level.low :: rest := by simpa using hp
    have hs : sampledLevel l s = .low := sampledLevel_input hd hp'
    have hu := useLevel_input hd hp'
    simp [pollLoop, hs, smpLine, countLow, hu]
  | succ n ih =>
    have hp' : s.pinIn = Level.low :: (List.replicate (n + 1) .low ++ rest) := by
      simpa [List.replicate_succ] using hp
    have hs : sampledLevel l s = .low := sampledLevel_input hd hp'
    have hu := useLevel_input hd hp'
    have := ih (waitUs s.cfg.tPollUs (countLow (smpLine l s))) (by simpa using hd) (by simp [hu])
    simp only [pollLoop, hs]
    rw [this]
    simp [waitUs, countLow, smpLine, hu, hs, List.replicate_succ, Nat.add_assoc, Nat.add_comm 1]

/-- `PCNT` counts at most the samples that were allowed (R72 (d)). -/
theorem pollLoop_pcnt_le (l : Line) (n : Nat) (s : State) :
    (pollLoop l n s).1.pcnt ≤ s.pcnt + (n + 1) := by
  induction n generalizing s with
  | zero => unfold pollLoop; split <;> simp
  | succ n ih =>
    unfold pollLoop
    split
    · simp
    · have := ih (waitUs s.cfg.tPollUs (countLow (smpLine l s)))
      simp at this
      omega

/-- `PCNT` never exceeds `POLL_LIMIT` after a busy-wait (R72 (d)). -/
theorem poll_pcnt_le (l : Line) (s : State) : (poll l s).1.pcnt ≤ pollLimit s.cfg := by
  have := pollLoop_pcnt_le l s.cfg.pollLimitPred { s with pcnt := 0 }
  simpa [poll, pollLimit, Nat.add_comm] using this

/-- A busy-wait's events: samples of its own line and waits, and nothing else. -/
def isPollEvent (l : Line) : Event → Bool
  | .smp m _ => decide (m = l)
  | .waitUs _ => true
  | _ => false

theorem pollLoop_trace (l : Line) (n : Nat) (s : State) :
    ∃ evs, (pollLoop l n s).1.trace = s.trace ++ evs ∧ evs.all (isPollEvent l) = true := by
  induction n generalizing s with
  | zero =>
    unfold pollLoop
    split <;> exact ⟨[_], by simp; rfl, by simp [isPollEvent]⟩
  | succ n ih =>
    unfold pollLoop
    split
    · exact ⟨[_], by simp; rfl, by simp [isPollEvent]⟩
    · obtain ⟨evs, he, ha⟩ := ih (waitUs s.cfg.tPollUs (countLow (smpLine l s)))
      refine ⟨_, by rw [he]; simp [List.append_assoc]; rfl, ?_⟩
      simpa [isPollEvent] using ha

theorem poll_trace (l : Line) (s : State) :
    ∃ evs, (poll l s).1.trace = s.trace ++ evs ∧ evs.all (isPollEvent l) = true := by
  simpa [poll] using pollLoop_trace l s.cfg.pollLimitPred { s with pcnt := 0 }

/-! ### The sequencer (R26) -/

@[simp] theorem stepRun_timedOut (st : State) (v : Byte) (a : Action) : stepRun ⟨st, v, true⟩ a = ⟨st, v, true⟩ := rfl

@[simp] theorem stepRun_running (st : State) (v : Byte) (a : Action) :
    stepRun ⟨st, v, false⟩ a = performAction ⟨st, v, false⟩ a := rfl

@[simp] theorem runList_nil (r : Run) : runList [] r = r := rfl

@[simp] theorem runList_cons (a : Action) (p : List Action) (r : Run) :
    runList (a :: p) r = runList p (stepRun r a) := rfl

theorem runList_append (p q : List Action) (r : Run) : runList (p ++ q) r = runList q (runList p r) := by
  simp [runList]

/-- Once `TargetTimeout` is raised the rest of the list is dropped (R187). -/
@[simp] theorem runList_timedOut (p : List Action) (st : State) (v : Byte) :
    runList p ⟨st, v, true⟩ = ⟨st, v, true⟩ := by
  induction p with
  | nil => rfl
  | cons a p ih => simp [ih]

/-- What every entry of a list keeps, the list keeps. -/
theorem runList_keeps (P : State → Prop) (p : List Action) (r : Run)
    (hp : ∀ a ∈ p, ∀ q : Run, P q.st → P (performAction q a).st) (h : P r.st) : P (runList p r).st := by
  induction p generalizing r with
  | nil => exact h
  | cons a p ih =>
    rw [runList_cons]
    refine ih _ (fun b hb => hp b (by simp [hb])) ?_
    unfold stepRun
    split
    · exact h
    · exact hp a (by simp) r h

/-- A list without `POLL` never times out. -/
theorem runList_no_timeout (p : List Action) (r : Run) (hr : r.timedOut = false)
    (hp : ∀ a ∈ p, ∀ l, a ≠ .poll l) : (runList p r).timedOut = false := by
  induction p generalizing r with
  | nil => exact hr
  | cons a p ih =>
    rw [runList_cons]
    refine ih _ ?_ (fun b hb => hp b (by simp [hb]))
    have := hp a (by simp)
    unfold stepRun
    split
    · exact hr
    · cases a <;> simp_all [performAction]

/-! ### Registers a list does not write -/

@[simp] theorem performAction_cfg (r : Run) (a : Action) : (performAction r a).st.cfg = r.st.cfg := by
  cases a <;> simp [performAction] <;> split <;> simp

@[simp] theorem performAction_hostIn (r : Run) (a : Action) : (performAction r a).st.hostIn = r.st.hostIn := by
  cases a <;> simp [performAction] <;> split <;> simp

@[simp] theorem performAction_opc (r : Run) (a : Action) : (performAction r a).st.opc = r.st.opc := by
  cases a <;> simp [performAction] <;> split <;> simp

@[simp] theorem performAction_opa (r : Run) (a : Action) : (performAction r a).st.opa = r.st.opa := by
  cases a <;> simp [performAction] <;> split <;> simp

@[simp] theorem performAction_opb (r : Run) (a : Action) : (performAction r a).st.opb = r.st.opb := by
  cases a <;> simp [performAction] <;> split <;> simp

@[simp] theorem performAction_err (r : Run) (a : Action) : (performAction r a).st.err = r.st.err := by
  cases a <;> simp [performAction] <;> split <;> simp

@[simp] theorem performAction_busy (r : Run) (a : Action) : (performAction r a).st.busy = r.st.busy := by
  cases a <;> simp [performAction] <;> split <;> simp

@[simp] theorem performAction_responses (r : Run) (a : Action) :
    (performAction r a).st.responses = r.st.responses := by
  cases a <;> simp [performAction] <;> split <;> simp

theorem performAction_mode (r : Run) (a : Action) (h : ∀ m, a ≠ .setMode m) :
    (performAction r a).st.mode = r.st.mode := by
  cases a <;> simp_all [performAction] <;> split <;> simp

theorem performAction_entered (r : Run) (a : Action) (h : ∀ e, a ≠ .setEntered e) :
    (performAction r a).st.entered = r.st.entered := by
  cases a <;> simp_all [performAction] <;> split <;> simp

theorem performAction_dir (r : Run) (a : Action) (h : ∀ l d, a ≠ .dir l d) :
    (performAction r a).st.dir = r.st.dir := by
  cases a <;> simp_all [performAction] <;> split <;> simp

theorem performAction_out (r : Run) (a : Action) (h : ∀ l v, a ≠ .drv l v) :
    (performAction r a).st.out = r.st.out := by
  cases a <;> simp_all [performAction] <;> split <;> simp

theorem performAction_busDir (r : Run) (a : Action) (h : ∀ d, a ≠ .bdir d) :
    (performAction r a).st.busDir = r.st.busDir := by
  cases a <;> simp_all [performAction] <;> split <;> simp

theorem performAction_busOut (r : Run) (a : Action) (h : ∀ b, a ≠ .bdrv b) :
    (performAction r a).st.busOut = r.st.busOut := by
  cases a <;> simp_all [performAction] <;> split <;> simp

theorem performAction_resp (r : Run) (a : Action) (hc : a ≠ .clearResp) (h : ∀ k, a ≠ .respBit k) :
    (performAction r a).st.resp = r.st.resp := by
  cases a <;> simp_all [performAction] <;> split <;> simp

theorem performAction_result (r : Run) (a : Action) (hs : a ≠ .resultFromSample) (h : a ≠ .resultFromResp) :
    (performAction r a).st.result = r.st.result := by
  cases a <;> simp_all [performAction] <;> split <;> simp

theorem performAction_pcnt (r : Run) (a : Action) (h : ∀ l, a ≠ .poll l) :
    (performAction r a).st.pcnt = r.st.pcnt := by
  cases a <;> simp_all [performAction]

/-- A list only adds events (R67, R68). -/
theorem runList_trace (p : List Action) (r : Run) : ∃ evs, (runList p r).st.trace = r.st.trace ++ evs := by
  refine runList_keeps (fun s => ∃ evs, s.trace = r.st.trace ++ evs) p r ?_ ⟨[], by simp⟩
  rintro a - q ⟨evs, h⟩
  cases a <;> simp [performAction, h]
  case poll l =>
    obtain ⟨ps, hp, -⟩ := poll_trace l q.st
    rw [h, List.append_assoc] at hp
    split <;> exact ⟨evs ++ ps, by simpa using hp⟩

/-! ### A whole operation -/

end Sys2Proof.Machine
end

