-- ==== Sys2Proof/Laws/Runs.lean ====
section
/-!
SUPPORT. What acceptance, a whole operation, the exit list, the abort and a frame do, said once each: the lemmas
a proof about one instruction cites instead of unfolding the sequencer.
-/

namespace Sys2Proof.Machine

open Sys2Proof.Safety

/-! ### Operands -/

theorem setCell_setCell {α : Type} (r : PerLine α) (l : Line) (u v : α) :
    setCell (setCell r l u) l v = setCell r l v := by cases l <;> rfl

theorem setCell_getCell {α : Type} (r : PerLine α) (l : Line) : setCell r l (getCell r l) = r := by cases l <;> rfl

/-- A selector that R86 allows names its fuse. -/
theorem fuse_bits (f : FuseSel) (e : Bool) (h : f = .extended → e = true) : fuse? e f.bits = some f := by
  cases f <;> cases e <;> simp_all <;> rfl

/-- A selector that names no fuse is one R182 refuses, and the other way round. -/
theorem fuse_none (e : Bool) (sel : BitVec 2) : fuse? e sel = none ↔ sel = 3#2 ∨ (sel = 2#2 ∧ e = false) := by
  revert sel; cases e <;> decide

theorem bitLevel_code (v : Level) : bitLevel v.code 0 = v := by cases v <;> rfl

/-! ### Acceptance and completion -/

/-- Accepting an instruction's own word latches its three fields (R24). -/
theorem accept_encode (i : Instr) (s : State) : accept (encode i) s =
    { s with opc := i.opcode.code, opa := i.aOperand, opb := i.bOperand, busy := true, upc := 0#9 } := by
  simp [accept, encode]

/-- An operation whose list runs to its end completes with code 0. -/
theorem conduct_done {p : List Action} {s t : State} {v : Byte} (h : run p s = ⟨t, v, false⟩) :
    conduct p s = complete .ok t := by
  simp [conduct, h]

/-- An operation whose busy-wait runs out is aborted (R187). -/
theorem conduct_timeout {p : List Action} {s t : State} {v : Byte} (h : run p s = ⟨t, v, true⟩) :
    conduct p s = abort t := by
  simp [conduct, h]

theorem performAction_poll_done {st q : State} {l : Line} (v : Byte) (b : Bool) (h : poll l st = (q, true)) :
    performAction ⟨st, v, b⟩ (.poll l) = ⟨advance q, v, b⟩ := by
  simp [performAction, h]

theorem performAction_poll_timeout {st q : State} {l : Line} (v : Byte) (b : Bool) (h : poll l st = (q, false)) :
    performAction ⟨st, v, b⟩ (.poll l) = ⟨q, v, true⟩ := by
  simp [performAction, h]

/-- The micro-sequence counter is not observable (R26): a run is known up to it. -/
theorem exists_upc {r : Run} {f : BitVec 9 → Run} (h : r = f r.st.upc) : ∃ u, r = f u := ⟨_, h⟩

/-! ### The exit list and the abort -/

/-- One line of the exit list (R133). -/
theorem releaseLine_run (d : PerLine Direction) (l : Line) (s : State) (v : Byte)
    (h : getCell d l = getCell s.dir l) :
    runList (releaseLine d l) ⟨s, v, false⟩ = ⟨{ s with
      dir := setCell s.dir l .input
      out := setCell s.out l (if getCell d l = .output then .low else getCell s.out l)
      upc := if getCell d l = .output then s.upc + 1#9 + 1#9 else s.upc
      trace := s.trace ++ (if getCell d l = .output then [.drv l .low, .dir l .input] else []) }, v, false⟩ := by
  cases hd : getCell d l with
  | output => simp [releaseLine, hd, performAction, advance, drvLine, dirLine]
  | input => simp [releaseLine, hd]; rw [setCell_getCell, ← hd, h, setCell_getCell]

/-- The whole exit list (R133). -/
theorem exitList_run (s : State) (v : Byte) :
    ∃ u, runList (exitList s.cfg s.dir) ⟨s, v, false⟩ = ⟨{ s with
      dir := exitDir s.dir, out := exitOut s.cfg s.dir s.out, busDir := .input, upc := u
      trace := s.trace ++ exitTrace s.cfg s.dir }, v, false⟩ := by
  simp only [exitList, exitLines, List.flatMap_cons, List.flatMap_nil, List.append_nil, runList_cons,
    stepRun_running, runList_append, performAction, runList_nil]
  rw [releaseLine_run s.dir .oe, releaseLine_run s.dir .wr, releaseLine_run s.dir .xtal1,
    releaseLine_run s.dir .rdy, releaseLine_run s.dir .bs1, releaseLine_run s.dir .bs2,
    releaseLine_run s.dir .xa0, releaseLine_run s.dir .xa1, releaseLine_run s.dir .pagel]
  · apply exists_upc
    simp only [stepRun_running, performAction, advance, drvLine, busDirection, setCell, getCell, exitDir, exitOut,
      exitTrace, List.append_assoc, List.flatten_cons, List.flatten_nil, List.append_nil, vccOffLevel, rstOffLevel,
      List.cons_append, List.nil_append]
    rfl
  all_goals rfl

/-- The abort (R187), whatever state it starts from. -/
theorem abort_eq (s : State) : abort s = { s with
    entered := false, dir := exitDir s.dir, out := exitOut s.cfg s.dir s.out, busDir := .input, upc := 0#9
    err := .targetTimeout, busy := false, responses := s.responses ++ [⟨.targetTimeout, s.result⟩]
    trace := s.trace ++ exitTrace s.cfg s.dir } := by
  obtain ⟨u, hu⟩ := exitList_run { s with entered := false, upc := 0#9 } 0#8
  simp only at hu
  simp only [abort, run, hu]
  rfl

/-! ### A frame -/

/-- One bit-time without its sample (R88, R164). -/
theorem bitTime_run (p : Params) (a b : Level) (s : State) (val : Byte) :
    runList (bitTimeList p a b) ⟨s, val, false⟩ =
      ⟨{ s with
        out := { s.out with xa1 := a, xa0 := b, bs1 := .low }
        upc := s.upc + 6#9
        trace := s.trace ++ bitTimeTrace p a b none }, val, false⟩ := by
  simp [bitTimeList, drvSerial, drvRole, onRole, rho, pulseList, performAction, advance, drvLine, waitUs, setCell, bitTimeTrace,
    BitVec.add_assoc]

/-- A sample into the accumulator, whatever the environment answers (R160). -/
theorem sampleInto_run (k : Nat) (s : State) (val : Byte) :
    ∃ (v : Level) (pins : List Level) (draws : Nat), runList (sampleInto k) ⟨s, val, false⟩ =
      ⟨{ s with
        resp := setBit s.resp k v, pinIn := pins, draws := draws
        upc := s.upc + 1#9
        trace := s.trace ++ [.smp .rdy v] }, v.code, false⟩ := by
  refine ⟨sampledLevel .rdy s, (useLevel .rdy s).pinIn, (useLevel .rdy s).draws, ?_⟩
  simp only [sampleInto, onRole, rho, List.cons_append, List.nil_append, runList_cons, runList_nil, stepRun_running,
    performAction, bitLevel_code, advance, smpLine]
  unfold useLevel
  split <;> rfl

set_option maxRecDepth 4000 in
/-- A frame whose eight samples the environment answers with v0 to v7 (R88, R160). -/
theorem frameList_run (p : Params) (d i : Byte) (s : State) (val : Byte) (v0 v1 v2 v3 v4 v5 v6 v7 : Level)
    (rest : List Level) (hd : s.dir.rdy = .input) (hp : s.pinIn = [v0, v1, v2, v3, v4, v5, v6, v7] ++ rest) :
    runList (frameList p d i) ⟨s, val, false⟩ =
      ⟨{ s with
        out := { s.out with bs1 := .low, xa0 := .low, xa1 := .low }
        resp := responseByte [v0, v1, v2, v3, v4, v5, v6, v7]
        pinIn := rest
        upc := s.upc + 75#9
        trace := s.trace ++ frameTrace p d i [v0, v1, v2, v3, v4, v5, v6, v7] }, v7.code, false⟩ := by
  obtain ⟨mode, entered, dir, out, busDir, busOut, opc, opa, opb, resp, result, err, busy, upc, pcnt, cfg, hostIn,
    pinIn, busIn, draws, trace, responses⟩ := s
  obtain ⟨a, b, c, e, f, g, h, k, l, m, n, o⟩ := dir
  simp only at hd hp
  subst hd hp
  simp only [runList, frameList, bitTimeList, drvSerial, drvRole, onRole, rho, pulseList, sampleInto, List.cons_append,
    List.nil_append, List.foldl_cons, List.foldl_nil, List.range, List.range.loop,
    List.flatMap_cons, List.flatMap_nil, payloadBit, trailingBit, Nat.reduceLeDiff, if_true, if_false, stepRun,
    performAction, Bool.false_eq_true, drvLine, smpLine, advance, waitUs, setCell, getCell, sampledLevel, useLevel,
    bitLevel_code, List.append_assoc, Nat.reduceSub]
  simp only [BitVec.add_assoc, BitVec.reduceAdd]
  congr 2
  cases v0 <;> cases v1 <;> cases v2 <;> cases v3 <;> cases v4 <;> cases v5 <;> cases v6 <;> cases v7 <;> rfl

/-- A payload bit-time that is followed by a sample (R160 step 3). -/
theorem payloadBit_run (p : Params) (d i : Byte) (k : Nat) (hk : k ≤ 6) (s : State) (val : Byte) :
    ∃ (v : Level) (pins : List Level) (draws : Nat), runList (payloadBit p d i k) ⟨s, val, false⟩ =
      ⟨{ s with
        out := { s.out with xa1 := bitLevel d (7 - k), xa0 := bitLevel i (7 - k), bs1 := .low }
        resp := setBit s.resp (6 - k) v, pinIn := pins, draws := draws
        upc := s.upc + 6#9 + 1#9
        trace := s.trace ++ bitTimeTrace p (bitLevel d (7 - k)) (bitLevel i (7 - k)) (some v) }, v.code, false⟩ := by
  have hs : (if k ≤ 6 then sampleInto (6 - k) else []) = sampleInto (6 - k) := if_pos hk
  obtain ⟨v, pins, draws, h⟩ := sampleInto_run (6 - k) { s with
    out := { s.out with xa1 := bitLevel d (7 - k), xa0 := bitLevel i (7 - k), bs1 := .low }
    upc := s.upc + 6#9
    trace := s.trace ++ bitTimeTrace p (bitLevel d (7 - k)) (bitLevel i (7 - k)) none } val
  refine ⟨v, pins, draws, ?_⟩
  simp only at h
  simp only [payloadBit, hs]
  rw [runList_append, bitTime_run, h]
  simp only [bitTimeTrace, List.append_assoc, List.cons_append, List.nil_append]

/-- The list of a frame, cut at its bit-times. -/
theorem frameList_eq (p : Params) (d i : Byte) : frameList p d i =
    .clearResp :: .drv .bs1 .low :: (bitTimeList p .low .low ++ (sampleInto 7 ++
      (payloadBit p d i 0 ++ (payloadBit p d i 1 ++ (payloadBit p d i 2 ++ (payloadBit p d i 3 ++
      (payloadBit p d i 4 ++ (payloadBit p d i 5 ++ (payloadBit p d i 6 ++
      (bitTimeList p (bitLevel d 0) (bitLevel i 0) ++
      (bitTimeList p .low .low ++ bitTimeList p .low .low))))))))))) := rfl

/-- A frame, whatever the environment answers to its eight samples (R88, R160). -/
theorem frameList_any (p : Params) (d i : Byte) (s : State) (val : Byte) :
    ∃ (v0 v1 v2 v3 v4 v5 v6 v7 : Level) (pins : List Level) (draws : Nat),
      runList (frameList p d i) ⟨s, val, false⟩ = ⟨{ s with
        out := { s.out with bs1 := .low, xa0 := .low, xa1 := .low }
        resp := responseByte [v0, v1, v2, v3, v4, v5, v6, v7]
        pinIn := pins, draws := draws
        upc := s.upc + 75#9
        trace := s.trace ++ frameTrace p d i [v0, v1, v2, v3, v4, v5, v6, v7] }, v7.code, false⟩ := by
  rw [frameList_eq]
  simp only [runList_cons, stepRun_running, performAction, runList_append, bitTime_run, drvLine, advance]
  obtain ⟨v0, p0, d0, h⟩ := sampleInto_run 7 _ _
  rw [h]; clear h; dsimp only
  obtain ⟨v1, p1, d1, h⟩ := payloadBit_run p d i 0 (by decide) _ _
  rw [h]; clear h; dsimp only
  obtain ⟨v2, p2, d2, h⟩ := payloadBit_run p d i 1 (by decide) _ _
  rw [h]; clear h; dsimp only
  obtain ⟨v3, p3, d3, h⟩ := payloadBit_run p d i 2 (by decide) _ _
  rw [h]; clear h; dsimp only
  obtain ⟨v4, p4, d4, h⟩ := payloadBit_run p d i 3 (by decide) _ _
  rw [h]; clear h; dsimp only
  obtain ⟨v5, p5, d5, h⟩ := payloadBit_run p d i 4 (by decide) _ _
  rw [h]; clear h; dsimp only
  obtain ⟨v6, p6, d6, h⟩ := payloadBit_run p d i 5 (by decide) _ _
  rw [h]; clear h; dsimp only
  obtain ⟨v7, p7, d7, h⟩ := payloadBit_run p d i 6 (by decide) _ _
  rw [h]; clear h; dsimp only
  refine ⟨v0, v1, v2, v3, v4, v5, v6, v7, p7, d7, ?_⟩
  rw [bitTime_run, bitTime_run, bitTime_run]
  dsimp only
  simp only [BitVec.add_assoc, BitVec.reduceAdd, List.append_assoc]
  congr 2
  cases v0 <;> cases v1 <;> cases v2 <;> cases v3 <;> cases v4 <;> cases v5 <;> cases v6 <;> cases v7 <;> rfl

/-- A frame, whatever the environment answers, with its eight samples tied to the environment's answers where SDO is
Input and the script holds eight of them (R31, R88, R160). -/
theorem frameList_script (p : Params) (d i : Byte) (s : State) (val : Byte) :
    ∃ (v pins : List Level) (draws : Nat) (last : Byte), v.length = 8 ∧
      (s.dir.rdy = .input → 8 ≤ s.pinIn.length → s.pinIn = v ++ pins) ∧
      runList (frameList p d i) ⟨s, val, false⟩ = ⟨{ s with
        out := { s.out with bs1 := .low, xa0 := .low, xa1 := .low }
        resp := responseByte v
        pinIn := pins, draws := draws
        upc := s.upc + 75#9
        trace := s.trace ++ frameTrace p d i v }, last, false⟩ := by
  by_cases hc : s.dir.rdy = .input ∧ 8 ≤ s.pinIn.length
  · obtain ⟨hd, hl⟩ := hc
    obtain ⟨v0, v1, v2, v3, v4, v5, v6, v7, rest, hp⟩ :
        ∃ v0 v1 v2 v3 v4 v5 v6 v7 rest, s.pinIn = [v0, v1, v2, v3, v4, v5, v6, v7] ++ rest := by
      rcases hh : s.pinIn with - | ⟨_, - | ⟨_, - | ⟨_, - | ⟨_, - | ⟨_, - | ⟨_, - | ⟨_, - | ⟨_, rest⟩⟩⟩⟩⟩⟩⟩⟩ <;>
        first
        | exact ⟨_, _, _, _, _, _, _, _, _, rfl⟩
        | simp [hh] at hl
    exact ⟨_, rest, s.draws, v7.code, rfl, fun _ _ => hp, frameList_run p d i s val _ _ _ _ _ _ _ _ rest hd hp⟩
  · obtain ⟨v0, v1, v2, v3, v4, v5, v6, v7, pins, draws, h⟩ := frameList_any p d i s val
    exact ⟨[v0, v1, v2, v3, v4, v5, v6, v7], pins, draws, v7.code, rfl, fun a b => absurd ⟨a, b⟩ hc, h⟩

end Sys2Proof.Machine
end

