-- ==== Sys2Proof/Laws/Exec.lean ====
section
/-!
SUPPORT. What exec can do, said once for all nineteen instructions: each is `operate` on its checks and its list
(`exec_eq`), its checks are the table of R182 (`checks_eq`), and it ends in one of three ways (`exec_cases`).
-/

namespace Sys2Proof.Machine

open Sys2Proof.Safety

/-- The checks of an instruction, in the order its meaning makes them. -/
def checksOf (i : Instr) (s : State) : List (Option ErrCode) :=
  match i with
  | .setmode m => [modeOperandCheck m, modeLockedCheck s]
  | .enter => [alreadyEnteredCheck s, modeUnselectedCheck s]
  | .exit => [notEnteredCheck s]
  | .ppSendcmd _ => [notEnteredCheck s, parallelCheck s]
  | .ppLoaddata _ => [notEnteredCheck s, parallelCheck s]
  | .ppWrfuse sel _ => [notEnteredCheck s, parallelCheck s, selectorCheck s sel]
  | .ppRdfuse sel => [notEnteredCheck s, parallelCheck s, selectorCheck s sel]
  | .spXfer _ _ => [notEnteredCheck s, serialCheck s]
  | .spWrfuse sel _ => [notEnteredCheck s, serialCheck s, selectorCheck s sel]
  | .spRdfuse sel => [notEnteredCheck s, serialCheck s, selectorCheck s sel]
  | _ => []

/-- The list of an instruction whose checks have passed. -/
def listOf (i : Instr) (s : State) : List Action :=
  match i with
  | .setmode m => [.setMode m]
  | .enter => enterList s.mode s.cfg ++ [.setEntered true]
  | .exit => .setEntered false :: exitList s.cfg s.dir
  | .setdir l d => [.dir l d]
  | .wrline l v => [.drv l v]
  | .rdline l => [.smp l, .resultFromSample]
  | .strobe l h => strobeList l h.toNat
  | .delayms n => [.waitMs n.toNat]
  | .delayus n => [.waitUs n.toNat]
  | .setbusdir d => [.bdir d]
  | .wrbus b => [.bdrv b]
  | .rdbus => [.bsmp, .resultFromSample]
  | .ppSendcmd b => sendCommandList s.mode s.cfg b
  | .ppLoaddata b => loadFuseDataList s.mode s.cfg b
  | .ppWrfuse sel v => withFuse s.cfg.extEn sel fun f => ppWriteList s.mode s.cfg f v
  | .ppRdfuse sel => withFuse s.cfg.extEn sel fun f => ppReadList s.mode s.cfg f
  | .spXfer d b => frameList s.cfg d b ++ [.resultFromResp]
  | .spWrfuse sel v => withFuse s.cfg.extEn sel fun f => spWriteList s.cfg f v
  | .spRdfuse sel => withFuse s.cfg.extEn sel fun f => spReadList s.cfg f

/-! ### What a list may hold -/

theorem all_releaseLine (P : Action → Bool) (h1 : ∀ l, P (.drv l .low) = true) (h2 : ∀ l, P (.dir l .input) = true)
    (d : PerLine Direction) (l : Line) : (releaseLine d l).all P = true := by
  unfold releaseLine
  split <;> simp [h1, h2]

theorem all_exitList (P : Action → Bool) (h1 : ∀ l v, P (.drv l v) = true) (h2 : ∀ l, P (.dir l .input) = true)
    (h3 : P (.bdir .input) = true) (p : Params) (d : PerLine Direction) : (exitList p d).all P = true := by
  simp [exitList, exitLines, h1, h3, all_releaseLine P (fun l => h1 l _) h2]

theorem all_withFuse (P : Action → Bool) (e : Bool) (sel : BitVec 2) (f : FuseSel → List Action)
    (h : ∀ x, (f x).all P = true) : (withFuse e sel f).all P = true := by
  unfold withFuse
  split
  · exact h _
  · rfl

/-- The entries the list of an instruction may hold: a `POLL`, a write of MODE or `ENTERED`, or a write of RESULT
or RESP, only where the instruction is one that does so. -/
def allowed (i : Instr) : Action → Bool
  | .poll _ => hasPoll i
  | .setMode m => decide (i = .setmode m)
  | .setEntered true => decide (i = .enter)
  | .setEntered false => decide (i = .exit)
  | .resultFromSample => returnsValue i
  | .resultFromResp => returnsValue i
  | .clearResp => isHvsp i
  | .respBit _ => isHvsp i
  | _ => true

theorem listOf_allowed (i : Instr) (s : State) : ∀ a ∈ listOf i s, allowed i a = true := by
  rw [← List.all_eq_true]
  cases i <;> try rfl
  case enter => simp only [listOf]; cases s.mode <;> rfl
  case exit => simp only [listOf, List.all_cons]; rw [all_exitList] <;> intros <;> rfl
  case setmode => simp [listOf, allowed]
  case ppSendcmd => simp only [listOf]; cases s.mode <;> rfl
  case ppLoaddata => simp only [listOf]; cases s.mode <;> rfl
  case ppWrfuse => simp only [listOf]; apply all_withFuse; intro x; cases s.mode <;> rfl
  case ppRdfuse => simp only [listOf]; apply all_withFuse; intro x; cases s.mode <;> rfl
  case spWrfuse sel v =>
    have h : ∀ d i, (frameList s.cfg d i).all (allowed (.spWrfuse sel v)) = true := fun _ _ => rfl
    simp only [listOf]; apply all_withFuse; intro x
    simp only [spWriteList, pairFrame, List.all_append, h]; rfl
  case spRdfuse sel =>
    have h : ∀ d i, (frameList s.cfg d i).all (allowed (.spRdfuse sel)) = true := fun _ _ => rfl
    simp only [listOf]; apply all_withFuse; intro x
    simp only [spReadList, pairFrame, List.all_append, h]; rfl

/-- A list without `POLL` runs to its end. -/
theorem run_no_timeout {i : Instr} (h : hasPoll i = false) (s u : State) : (run (listOf i s) u).timedOut = false :=
  runList_no_timeout (listOf i s) ⟨u, 0x00#8, false⟩ rfl fun a ha l hl => by
    have := listOf_allowed i s a ha
    rw [hl] at this
    simp [allowed, h] at this

/-! ### The checks, and how an instruction ends -/

/-- Every instruction is `operate` on its checks and its list. -/
theorem exec_eq (i : Instr) (s : State) : exec i s = operate i (planned (checksOf i s) (listOf i s)) s := by
  cases i <;> rfl

/-- `s` with the word of `i` accepted. -/
theorem operate_ok (i : Instr) (p : List Action) (s : State) :
    operate i (.ok p) s = .next (conduct p { s with
      opc := i.opcode.code, opa := i.aOperand, opb := i.bOperand, busy := true, upc := 0#9 }) := by
  simp only [operate, accept_encode]

/-- A refusal leaves the latched word and `ERR` and nothing else (R183). -/
theorem operate_error (i : Instr) (e : ErrCode) (s : State) :
    operate i (.error e) s = .next (completed i e s.result s) := by
  simp only [operate, accept_encode]
  rfl

theorem modeCode_eq_two (m : Mode) : m.code = 2#8 ↔ m = .hvsp := by cases m <;> decide

theorem modeCode_eq_three (m : Mode) : m.code = 3#8 ↔ m = .unselected := by cases m <;> decide

theorem selectorCheck_eq (s : State) (sel : BitVec 2) :
    selectorCheck s sel = if BadSelectorOperand sel s then some .badSelector else none := by
  unfold selectorCheck
  split
  · rename_i f h
    rw [if_neg]
    intro hb
    rw [(fuse_none s.cfg.extEn sel).mpr hb] at h
    cases h
  · rename_i h
    rw [if_pos ((fuse_none s.cfg.extEn sel).mp h)]

/-- The checks of a well-formed instruction are the table of R182, in the order of R181. -/
theorem checks_eq (i : Instr) (s : State) (hw : i.wellFormed = true) :
    firstFailing (checksOf i s) = refusalOf i s := by
  cases i <;>
    simp only [checksOf, refusalOf, lifecycleRefusal, modeRefusal, selectorRefusal, modeLockedCheck,
      modeOperandCheck, alreadyEnteredCheck, modeUnselectedCheck, notEnteredCheck, parallelCheck, serialCheck,
      selectorCheck_eq, ne_eq, modeCode_eq_two, modeCode_eq_three]
  case setmode m =>
    have hm : m ≠ .unselected := by simpa [Instr.wellFormed] using hw
    cases s.entered <;> simp [hm, firstFailing]
  case enter => cases s.entered <;> by_cases hm : s.mode = .unselected <;> simp [hm, firstFailing]
  case exit => cases s.entered <;> simp [firstFailing]
  all_goals try rfl
  all_goals cases s.entered <;> by_cases hm : s.mode = .hvsp <;> simp [hm, firstFailing]
  all_goals split <;> rfl

/-- The three ways an instruction ends: refused, completed with code 0, or aborted. -/
theorem exec_cases {i : Instr} {s t : State} (h : exec i s = .next t) :
    (∃ e, firstFailing (checksOf i s) = some e ∧ t = completed i e s.result s) ∨
    (firstFailing (checksOf i s) = none ∧
      ∃ r : Run, r = run (listOf i s) { s with
        opc := i.opcode.code, opa := i.aOperand, opb := i.bOperand, busy := true, upc := 0#9 } ∧
      ((r.timedOut = false ∧ t = complete .ok r.st) ∨ (r.timedOut = true ∧ t = abort r.st))) := by
  rw [exec_eq] at h
  unfold planned at h
  cases hc : firstFailing (checksOf i s) with
  | some e =>
    simp only [hc, operate_error, Host.Outcome.next.injEq] at h
    exact .inl ⟨e, rfl, h.symm⟩
  | none =>
    simp only [hc, operate_ok, Host.Outcome.next.injEq] at h
    refine .inr ⟨rfl, _, rfl, ?_⟩
    simp only [conduct] at h
    split at h
    · rename_i ht; exact .inr ⟨ht, h.symm⟩
    · rename_i ht; exact .inl ⟨by simpa using ht, h.symm⟩

end Sys2Proof.Machine
end

