-- ==== Sys2Proof/Laws/PerInstr.lean ====
section
/-!
SUPPORT. The family `OwnRow`: the command word of an instruction selects the instruction's own row of the opcode
map by "w & mask = match" (R81), one lemma for each constructor.
-/

namespace Sys2Proof.Laws.OwnRow

/-- The word of `i` selects the row of `i` (R81). -/
def Statement (i : Instr) : Prop := i.opcode.selects (encode i) = true

/-- The row's test, field by field. -/
theorem selects_fields (i : Instr) (mo ma mb po pa pb : Byte)
    (hm : i.opcode.mask = packWord mo ma mb) (hp : i.opcode.pattern = packWord po pa pb)
    (ho : i.opcode.code &&& mo = po) (ha : i.aOperand &&& ma = pa) (hb : i.bOperand &&& mb = pb) : Statement i := by
  unfold Statement Opcode.selects encode
  rw [hm, hp, packWord_and, ho, ha, hb, beq_self_eq_true]

theorem line_mask (l : Line) : l.id &&& 0xF0#8 = 0x00#8 := by cases l <;> decide

theorem selector_mask (sel : BitVec 2) : sel.setWidth 8 &&& 0xFC#8 = 0x00#8 := by revert sel; decide

theorem direction_mask (d : Direction) : d.code &&& 0xFE#8 = 0x00#8 := by cases d <;> decide

theorem level_mask (v : Level) : v.code &&& 0xFE#8 = 0x00#8 := by cases v <;> decide

theorem mode_mask (m : Mode) : m.code &&& 0xFC#8 = 0x00#8 := by cases m <;> decide

theorem full_mask (b : Byte) : b &&& 0xFF#8 = b := BitVec.and_allOnes

theorem zero_mask (b : Byte) : 0x00#8 &&& b = 0x00#8 := BitVec.zero_and

theorem byte_mask (b : Byte) : b &&& 0x00#8 = 0x00#8 := BitVec.and_zero

theorem setmode (m : Mode) : Statement (.setmode m) :=
  selects_fields _ 0xFF#8 0xFF#8 0xFC#8 0x01#8 0x00#8 0x00#8 rfl rfl (full_mask _) (zero_mask _) (mode_mask m)

theorem enter : Statement .enter := by unfold Statement; decide

theorem exit : Statement .exit := by unfold Statement; decide

theorem setdir (l : Line) (d : Direction) : Statement (.setdir l d) :=
  selects_fields _ 0xFF#8 0xF0#8 0xFE#8 0x10#8 0x00#8 0x00#8 rfl rfl (full_mask _) (line_mask l) (direction_mask d)

theorem wrline (l : Line) (v : Level) : Statement (.wrline l v) :=
  selects_fields _ 0xFF#8 0xF0#8 0xFE#8 0x11#8 0x00#8 0x00#8 rfl rfl (full_mask _) (line_mask l) (level_mask v)

theorem rdline (l : Line) : Statement (.rdline l) :=
  selects_fields _ 0xFF#8 0xF0#8 0xFF#8 0x12#8 0x00#8 0x00#8 rfl rfl (full_mask _) (line_mask l) (zero_mask _)

theorem strobe (l : Line) (h : Byte) : Statement (.strobe l h) :=
  selects_fields _ 0xFF#8 0xF0#8 0x00#8 0x13#8 0x00#8 0x00#8 rfl rfl (full_mask _) (line_mask l) (byte_mask h)

theorem delayms (n : BitVec 16) : Statement (.delayms n) :=
  selects_fields _ 0xFF#8 0x00#8 0x00#8 0x14#8 0x00#8 0x00#8 rfl rfl (full_mask _) (byte_mask _) (byte_mask _)

theorem delayus (n : BitVec 16) : Statement (.delayus n) :=
  selects_fields _ 0xFF#8 0x00#8 0x00#8 0x15#8 0x00#8 0x00#8 rfl rfl (full_mask _) (byte_mask _) (byte_mask _)

theorem setbusdir (d : Direction) : Statement (.setbusdir d) :=
  selects_fields _ 0xFF#8 0xFF#8 0xFE#8 0x18#8 0x00#8 0x00#8 rfl rfl (full_mask _) (zero_mask _) (direction_mask d)

theorem wrbus (b : Byte) : Statement (.wrbus b) :=
  selects_fields _ 0xFF#8 0xFF#8 0x00#8 0x19#8 0x00#8 0x00#8 rfl rfl (full_mask _) (zero_mask _) (byte_mask b)

theorem rdbus : Statement .rdbus := by unfold Statement; decide

theorem ppSendcmd (b : Byte) : Statement (.ppSendcmd b) :=
  selects_fields _ 0xFF#8 0xFF#8 0x00#8 0x20#8 0x00#8 0x00#8 rfl rfl (full_mask _) (zero_mask _) (byte_mask b)

theorem ppLoaddata (b : Byte) : Statement (.ppLoaddata b) :=
  selects_fields _ 0xFF#8 0xFF#8 0x00#8 0x21#8 0x00#8 0x00#8 rfl rfl (full_mask _) (zero_mask _) (byte_mask b)

theorem ppWrfuse (sel : BitVec 2) (v : Byte) : Statement (.ppWrfuse sel v) :=
  selects_fields _ 0xFF#8 0xFC#8 0x00#8 0x22#8 0x00#8 0x00#8 rfl rfl (full_mask _) (selector_mask sel) (byte_mask v)

theorem ppRdfuse (sel : BitVec 2) : Statement (.ppRdfuse sel) :=
  selects_fields _ 0xFF#8 0xFC#8 0xFF#8 0x23#8 0x00#8 0x00#8 rfl rfl (full_mask _) (selector_mask sel) (zero_mask _)

theorem spXfer (d i : Byte) : Statement (.spXfer d i) :=
  selects_fields _ 0xFF#8 0x00#8 0x00#8 0x30#8 0x00#8 0x00#8 rfl rfl (full_mask _) (byte_mask i) (byte_mask d)

theorem spWrfuse (sel : BitVec 2) (v : Byte) : Statement (.spWrfuse sel v) :=
  selects_fields _ 0xFF#8 0xFC#8 0x00#8 0x32#8 0x00#8 0x00#8 rfl rfl (full_mask _) (selector_mask sel) (byte_mask v)

theorem spRdfuse (sel : BitVec 2) : Statement (.spRdfuse sel) :=
  selects_fields _ 0xFF#8 0xFC#8 0xFF#8 0x33#8 0x00#8 0x00#8 rfl rfl (full_mask _) (selector_mask sel) (zero_mask _)

end Sys2Proof.Laws.OwnRow
end

