-- ==== Sys2Proof/Laws/Traces.lean ====
section
/-!
SUPPORT. What an observer reads off a trace that is put together from pieces: the trace of a frame in front of other
events, and the bus direction and OE's level along a trace. A proof about pulses, samples or contention cites these
and does not unfold the traces.
-/

namespace Sys2Proof.Safety

open Sys2Proof.Machine

/-! ### A frame in front of other events (R88) -/

theorem length_eight {v : List Level} (h : v.length = 8) :
    ∃ v0 v1 v2 v3 v4 v5 v6 v7, v = [v0, v1, v2, v3, v4, v5, v6, v7] := by
  match v with
  | [_, _, _, _, _, _, _, _] => exact ⟨_, _, _, _, _, _, _, _, rfl⟩

/-- Eleven rising clock edges, and the clock ends Low. -/
theorem risingEdges_frameTrace (p : Params) (d i : Byte) {v : List Level} (hv : v.length = 8) (now : Level)
    (rest : List Event) :
    risingEdges .bs1 now (frameTrace p d i v ++ rest) = 11 + risingEdges .bs1 .low rest := by
  obtain ⟨_, _, _, _, _, _, _, _, rfl⟩ := length_eight hv
  cases now <;> simp [frameTrace, serialStream, msbFirst, bitTimesTrace, bitTimeTrace, risingEdges] <;> omega

/-- SDI carries the data byte's stream at the rising edges, and ends Low. -/
theorem levelsAtRises_sdi_frameTrace (p : Params) (d i : Byte) {v : List Level} (hv : v.length = 8)
    (clk now : Level) (rest : List Event) :
    levelsAtRises .bs1 .xa1 clk now (frameTrace p d i v ++ rest) =
      serialStream d ++ levelsAtRises .bs1 .xa1 .low .low rest := by
  obtain ⟨_, _, _, _, _, _, _, _, rfl⟩ := length_eight hv
  simp [frameTrace, serialStream, msbFirst, bitTimesTrace, bitTimeTrace, levelsAtRises]

/-- SII carries the instruction byte's stream at the rising edges, and ends Low. -/
theorem levelsAtRises_sii_frameTrace (p : Params) (d i : Byte) {v : List Level} (hv : v.length = 8)
    (clk now : Level) (rest : List Event) :
    levelsAtRises .bs1 .xa0 clk now (frameTrace p d i v ++ rest) =
      serialStream i ++ levelsAtRises .bs1 .xa0 .low .low rest := by
  obtain ⟨_, _, _, _, _, _, _, _, rfl⟩ := length_eight hv
  simp [frameTrace, serialStream, msbFirst, bitTimesTrace, bitTimeTrace, levelsAtRises]

/-- The samples of a frame are its eight samples. -/
theorem samplesOf_frameTrace (p : Params) (d i : Byte) {v : List Level} (hv : v.length = 8) (rest : List Event) :
    samplesOf .rdy (frameTrace p d i v ++ rest) = v ++ samplesOf .rdy rest := by
  obtain ⟨_, _, _, _, _, _, _, _, rfl⟩ := length_eight hv
  simp [frameTrace, serialStream, msbFirst, bitTimesTrace, bitTimeTrace, samplesOf]

/-! ### The bus direction and OE's level along a trace (R221) -/

/-- The bus direction and OE's level after the events, given both before them. -/
def busAndOeAfter : Direction → Level → List Event → Direction × Level
  | d, oe, [] => (d, oe)
  | _, oe, .bdir d' :: rest => busAndOeAfter d' oe rest
  | d, _, .drv .oe v :: rest => busAndOeAfter d v rest
  | d, oe, _ :: rest => busAndOeAfter d oe rest

theorem busAndOeAfter_append (d : Direction) (oe : Level) (xs ys : List Event) :
    busAndOeAfter d oe (xs ++ ys) = busAndOeAfter (busAndOeAfter d oe xs).1 (busAndOeAfter d oe xs).2 ys := by
  induction xs generalizing d oe with
  | nil => rfl
  | cons x xs ih =>
    cases x with
    | drv l v => cases l <;> simp [busAndOeAfter, ih]
    | _ => simp [busAndOeAfter, ih]

/-- The check of a trace's start is part of the check of the trace. -/
theorem neverFightsForBus_start (d : Direction) (oe : Level) (es : List Event) :
    neverFightsForBus d oe es = (decide (oe = .low → d = .input) && neverFightsForBus d oe es) := by
  rcases es with - | ⟨⟨⟩ | ⟨l⟩ | _ | _ | _ | _ | _ | _, es⟩ <;> try cases l
  all_goals cases d <;> cases oe <;> simp [neverFightsForBus]

/-- A trace never fights for the bus exactly when its two parts do not. -/
theorem neverFightsForBus_append (d : Direction) (oe : Level) (xs ys : List Event) :
    neverFightsForBus d oe (xs ++ ys) = (neverFightsForBus d oe xs &&
      neverFightsForBus (busAndOeAfter d oe xs).1 (busAndOeAfter d oe xs).2 ys) := by
  induction xs generalizing d oe with
  | nil => exact neverFightsForBus_start d oe ys
  | cons x xs ih =>
    cases x with
    | drv l v => cases l <;> simp [neverFightsForBus, busAndOeAfter, ih, Bool.and_assoc]
    | _ => simp [neverFightsForBus, busAndOeAfter, ih, Bool.and_assoc]

/-- A busy-wait's events move neither the bus nor OE. -/
theorem busAndOeAfter_poll (d : Direction) (oe : Level) {es : List Event} (h : es.all (isPollEvent .rdy) = true)
    (hs : oe = .low → d = .input) :
    busAndOeAfter d oe es = (d, oe) ∧ neverFightsForBus d oe es = true := by
  induction es with
  | nil => cases d <;> cases oe <;> simp_all [busAndOeAfter, neverFightsForBus]
  | cons e es ih => cases e <;> simp_all [isPollEvent, busAndOeAfter, neverFightsForBus]

end Sys2Proof.Safety
end

