-- ==== Sys2Proof/Tests/Slice0.lean ====
section
/-!
SUPPORT. The model's own tests: decoding of the words the spec writes out (vectors V1, V2), one step of each
instruction against the spec's vectors (spec/95_test_vectors.md), and for every statement with hypotheses a
witness that they can be met. Every expected trace, word and response is the spec's.
-/

namespace Sys2Proof.Tests

open Sys2Proof.Machine Sys2Proof.Safety

/-! ### Well-formedness -/

/-- R96 (d): the one ill-formed term, and its word, which the decoder refuses. -/
theorem test_setmode_unselected_is_ill_formed :
    (Instr.setmode .unselected).wellFormed = false ∧ decode (encode (.setmode .unselected)) = none := by decide

/-! ### Decoding -/

/-- V1. -/
theorem test_decode_setmode : decode 0x010001#24 = some (.setmode .tiny2313) := by decide

/-- V1. -/
theorem test_decode_enter : decode 0x020000#24 = some (.enter) := by decide

/-- V1. -/
theorem test_decode_exit : decode 0x030000#24 = some (.exit) := by decide

/-- V1. -/
theorem test_decode_setdir : decode 0x100601#24 = some (.setdir .bs1 .output) := by decide

/-- V1. -/
theorem test_decode_wrline : decode 0x110A01#24 = some (.wrline .pagel .high) := by decide

/-- V1. -/
theorem test_decode_rdline : decode 0x120B00#24 = some (.rdline .start) := by decide

/-- V1. -/
theorem test_decode_strobe : decode 0x130405#24 = some (.strobe .xtal1 5#8) := by decide

/-- V1. -/
theorem test_decode_delayms : decode 0x1403E8#24 = some (.delayms 1000#16) := by decide

/-- V1. -/
theorem test_decode_delayus : decode 0x15012C#24 = some (.delayus 300#16) := by decide

/-- V1. -/
theorem test_decode_setbusdir : decode 0x180001#24 = some (.setbusdir .output) := by decide

/-- V1. -/
theorem test_decode_wrbus : decode 0x1900A5#24 = some (.wrbus 0xA5#8) := by decide

/-- V1. -/
theorem test_decode_rdbus : decode 0x1A0000#24 = some (.rdbus) := by decide

/-- V1. -/
theorem test_decode_pp_sendcmd : decode 0x200040#24 = some (.ppSendcmd 0x40#8) := by decide

/-- V1. -/
theorem test_decode_pp_loaddata : decode 0x2100D9#24 = some (.ppLoaddata 0xD9#8) := by decide

/-- V1. -/
theorem test_decode_pp_wrfuse : decode 0x2202FF#24 = some (.ppWrfuse 2#2 0xFF#8) := by decide

/-- V1. -/
theorem test_decode_pp_rdfuse : decode 0x230100#24 = some (.ppRdfuse 1#2) := by decide

/-- V1. -/
theorem test_decode_sp_xfer : decode 0x303CA5#24 = some (.spXfer 0xA5#8 0x3C#8) := by decide

/-- V1. -/
theorem test_decode_sp_wrfuse : decode 0x3201DF#24 = some (.spWrfuse 1#2 0xDF#8) := by decide

/-- V1. -/
theorem test_decode_sp_rdfuse : decode 0x330200#24 = some (.spRdfuse 2#2) := by decide

/-- V2, the first half of its words. -/
theorem test_illegal_words_first :
    [0x000000#24, 0xFFFFFF#24, 0x040000#24, 0x160000#24, 0x1B0000#24, 0x240000#24, 0x310000#24,
      0x340000#24, 0x010003#24, 0x010004#24, 0x010100#24, 0x020001#24, 0x030100#24].all
      (fun w => (decode w).isNone) = true := by decide

/-- V2, the second half of its words. -/
theorem test_illegal_words_second :
    [0x100C01#24, 0x101001#24, 0x100602#24, 0x110F00#24, 0x120B01#24, 0x130C01#24, 0x180002#24,
      0x190100#24, 0x1A0001#24, 0x200140#24, 0x2204D9#24, 0x230001#24, 0x330801#24].all
      (fun w => (decode w).isNone) = true := by decide

/-- V2, "Not illegal": selector 3 passes decode. -/
theorem test_selector_three_decodes :
    [0x2203D9#24, 0x230300#24, 0x3203D9#24, 0x330300#24].map decode =
      [some (.ppWrfuse 3#2 0xD9#8), some (.ppRdfuse 3#2), some (.spWrfuse 3#2 0xD9#8), some (.spRdfuse 3#2)] := by
  decide

/-- R99: the pseudo-instructions that depend on the program's mode. -/
theorem test_pseudo_fuse_operations :
    (pseudoRdfuse .tiny2313 .low).map encode = some 0x230000#24 ∧
    (pseudoWrfuse .hvsp .high 0xDF#8).map encode = some 0x3201DF#24 ∧ pseudoRdfuse .unselected .low = none := by
  decide

/-! ### Small states -/

/-- The parameters of the vectors: the defaults, with `POLL_LIMIT` = 3. -/
def vectorParams : Params := { defaultParams with pollLimitPred := 2 }

/-- The reset state with the environment's answers. -/
def resetWith (pins : List Level) (buses : List Byte) : State :=
  { State.ofParams vectorParams with pinIn := pins, busIn := buses }

/-- V10, "After". -/
def parallelSession (m : Mode) (pins : List Level) (buses : List Byte) : State :=
  { resetWith pins buses with
    mode := m, entered := true
    dir := ⟨.output, .output, .output, .output, .output, .input, .output, .output, .output, .output, .output, .input⟩
    out := ⟨.high, .low, .high, .high, .low, .low, .low, .low, .low, .low, .low, .low⟩ }

/-- V30, "After". -/
def serialSession (pins : List Level) : State :=
  { resetWith pins [] with
    mode := .hvsp, entered := true
    dir := ⟨.output, .output, .output, .output, .input, .input, .output, .input, .output, .output, .input, .input⟩
    out := ⟨.high, .low, .high, .high, .low, .low, .low, .low, .low, .low, .low, .low⟩ }

/-- n High samples, then these. -/
def highThen (n : Nat) (rest : List Level) : List Level := List.replicate n .high ++ rest

/-- The next state of an outcome. -/
def nextOf (o : Outcome) : State :=
  match o with
  | .next t => t
  | .fault e => nomatch e
  | .refused _ => State.reset

/-- The state after one step that takes the word `w` from the command port. -/
def after (w : CmdWord) (s : State) : State := nextOf (step { s with hostIn := [.command w] })

/-- The trace of a state. -/
def traceIs (s : State) (es : List Event) : Bool := decide (s.trace = es)

/-- The trace of a state from its n-th event on. -/
def traceFrom (n : Nat) (s : State) (es : List Event) : Bool := decide (s.trace.drop n = es)

/-! ### Steps -/

/-- V3, first row. -/
theorem test_setdir : (after 0x100201#24 (resetWith [] [])).trace = [.dir .oe .output] ∧
    pinOut .oe (after 0x100201#24 (resetWith [] [])) = some .low := by decide

/-- V3, third row: BS1 is an Input, so the latch is written and the pin stays undriven. -/
theorem test_wrline_on_input : (after 0x110601#24 (resetWith [] [])).out.bs1 = .high ∧
    pinOut .bs1 (after 0x110601#24 (resetWith [] [])) = none := by decide

/-- V3: START High. -/
theorem test_rdline_high : (after 0x120B00#24 (resetWith [.high] [])).trace = [.smp .start .high] ∧
    (after 0x120B00#24 (resetWith [.high] [])).responses = [⟨.ok, 0x01#8⟩] := by decide

/-- V5: a sample of an Output line is a free value, here of line RST, whose latch is High. -/
theorem test_rdline_of_output_is_free :
    (after 0x120100#24 (resetWith [.low] [])).result = (Config.freeLevel 0).code := by rfl

/-- V3: STROBE XTAL1, 5. -/
theorem test_strobe : (after 0x130405#24 (resetWith [] [])).trace =
    [.drv .xtal1 .high, .waitMs 5, .drv .xtal1 .low] := by decide

/-- V3: DELAYMS 100. -/
theorem test_delayms : (after 0x140064#24 (resetWith [] [])).trace = [.waitMs 100] := by decide

/-- V3: DELAYUS 65535, the longest single wait. -/
theorem test_delayus : (after 0x15FFFF#24 (resetWith [] [])).trace = [.waitUs 65535] := by decide

/-- V3: WRBUS 0xA5 while the bus is Input. -/
theorem test_wrbus : (after 0x1900A5#24 (resetWith [] [])).busOut = 0xA5#8 ∧
    busPins (after 0x1900A5#24 (resetWith [] [])) = none := by decide

/-- V3: SETBUSDIR OUT shows the latch at once. -/
theorem test_setbusdir : (after 0x180001#24 (resetWith [] [])).trace = [.bdir .output] ∧
    busPins (after 0x180001#24 { resetWith [] [] with busOut := 0xA5#8 }) = some 0xA5#8 := by decide

/-- V4. -/
theorem test_rdbus : (after 0x1A0000#24 (resetWith [] [0x62#8])).trace = [.bsmp 0x62#8] ∧
    (after 0x1A0000#24 (resetWith [] [0x62#8])).responses = [⟨.ok, 0x62#8⟩] := by decide

/-- V9. -/
theorem test_setmode : after 0x010000#24 (resetWith [] []) =
    { resetWith [] [] with mode := .atmega, opc := 0x01#8, responses := [⟨.ok, 0x00#8⟩] } := by decide

/-- V21: SETMODE inside a session, even to the same mode. -/
theorem test_setmode_locked :
    (after 0x010000#24 (parallelSession .atmega [] [])).responses = [⟨.modeLocked, 0x00#8⟩] := by decide

/-- V10. -/
theorem test_enter_parallel :
    traceIs (after 0x020000#24 { resetWith [] [] with mode := .atmega })
      [.bdir .input, .dir .oe .output, .drv .oe .low, .dir .wr .output, .drv .wr .low, .dir .xtal1 .output,
      .drv .xtal1 .low, .dir .bs1 .output, .drv .bs1 .low, .dir .bs2 .output, .drv .bs2 .low,
      .dir .xa0 .output, .drv .xa0 .low, .dir .xa1 .output, .drv .xa1 .low, .dir .pagel .output,
      .drv .pagel .low, .dir .rdy .input, .drv .vcc .high, .waitUs 80, .drv .rst .low, .waitUs 10,
      .drv .oe .high, .drv .wr .high] = true ∧
    (after 0x020000#24 { resetWith [] [] with mode := .atmega }).out = (parallelSession .atmega [] []).out ∧
    (after 0x020000#24 { resetWith [] [] with mode := .atmega }).dir = (parallelSession .atmega [] []).dir := by
  decide

/-- V30. -/
theorem test_enter_serial :
    traceIs (after 0x020000#24 { resetWith [] [] with mode := .hvsp })
      [.bdir .input, .dir .oe .output, .drv .oe .low, .dir .wr .output, .drv .wr .low, .dir .bs1 .output,
      .drv .bs1 .low, .dir .xa0 .output, .drv .xa0 .low, .dir .xa1 .output, .drv .xa1 .low,
      .drv .vcc .high, .waitUs 80, .dir .rdy .output, .drv .rdy .low, .drv .rst .low, .waitUs 1,
      .dir .rdy .input, .waitUs 10, .drv .oe .high, .drv .wr .high] = true ∧
    (after 0x020000#24 { resetWith [] [] with mode := .hvsp }).out = (serialSession []).out ∧
    (after 0x020000#24 { resetWith [] [] with mode := .hvsp }).dir = (serialSession []).dir := by decide

/-- V16. -/
theorem test_exit :
    traceIs (after 0x030000#24 (parallelSession .atmega [] []))
      [.drv .rst .high, .bdir .input, .drv .oe .low, .dir .oe .input, .drv .wr .low, .dir .wr .input,
      .drv .xtal1 .low, .dir .xtal1 .input, .drv .bs1 .low, .dir .bs1 .input, .drv .bs2 .low,
      .dir .bs2 .input, .drv .xa0 .low, .dir .xa0 .input, .drv .xa1 .low, .dir .xa1 .input,
      .drv .pagel .low, .dir .pagel .input, .drv .vcc .low] = true ∧
    IdleLines (after 0x030000#24 (parallelSession .atmega [] [])) := by decide

/-- V24: XTAL1 made an Input and RDY an Output by the host. -/
theorem test_exit_computed_from_dir :
    traceIs (after 0x030000#24 { parallelSession .atmega [] [] with
      dir := { (parallelSession .atmega [] []).dir with xtal1 := .input, rdy := .output } })
      [.drv .rst .high, .bdir .input, .drv .oe .low, .dir .oe .input, .drv .wr .low, .dir .wr .input,
      .drv .rdy .low, .dir .rdy .input, .drv .bs1 .low, .dir .bs1 .input, .drv .bs2 .low,
      .dir .bs2 .input, .drv .xa0 .low, .dir .xa0 .input, .drv .xa1 .low, .dir .xa1 .input,
      .drv .pagel .low, .dir .pagel .input, .drv .vcc .low] = true := by decide

/-- V11. -/
theorem test_pp_sendcmd :
    traceIs (after 0x200040#24 (parallelSession .atmega [] []))
      [.drv .xa1 .high, .drv .xa0 .low, .drv .bs1 .low, .drv .bs2 .low, .bdir .output, .bdrv 0x40#8,
      .waitMs 1, .drv .xtal1 .high, .waitMs 1, .drv .xtal1 .low, .waitMs 1, .bdir .input] = true ∧
    (after 0x200040#24 (parallelSession .atmega [] [])).out =
      ⟨.high, .low, .high, .high, .low, .low, .low, .low, .low, .high, .low, .low⟩ := by decide

/-- V12. -/
theorem test_pp_loaddata :
    traceIs (after 0x2100D9#24 (parallelSession .atmega [] []))
      [.drv .xa1 .low, .drv .xa0 .high, .drv .bs1 .low, .drv .bs2 .low, .bdir .output, .bdrv 0xD9#8,
      .waitMs 1, .drv .xtal1 .high, .waitMs 1, .drv .xtal1 .low, .waitMs 1, .bdir .input] = true := by decide

/-- V13, with the RESULT 0xDF that V14 left. -/
theorem test_pp_wrfuse :
    traceIs (after 0x2201D9#24 { parallelSession .atmega [.low, .high] [] with result := 0xDF#8 })
      [.drv .xa1 .high, .drv .xa0 .low, .drv .bs1 .low, .drv .bs2 .low, .bdir .output, .bdrv 0x40#8,
      .waitMs 1, .drv .xtal1 .high, .waitMs 1, .drv .xtal1 .low, .waitMs 1, .bdir .input, .drv .xa1 .low,
      .drv .xa0 .high, .drv .bs1 .low, .drv .bs2 .low, .bdir .output, .bdrv 0xD9#8, .waitMs 1,
      .drv .xtal1 .high, .waitMs 1, .drv .xtal1 .low, .waitMs 1, .bdir .input, .drv .bs1 .high,
      .drv .bs2 .high, .waitMs 1, .drv .wr .low, .waitMs 1, .drv .wr .high, .smp .rdy .low, .waitUs 100,
      .smp .rdy .high, .drv .bs1 .low, .drv .bs2 .low] = true ∧
    (after 0x2201D9#24 { parallelSession .atmega [.low, .high] [] with result := 0xDF#8 }).responses =
      [⟨.ok, 0xDF#8⟩] := by decide

/-- V20. -/
theorem test_pp_wrfuse_timeout :
    traceIs (after 0x220062#24 (parallelSession .atmega [.low, .low, .low] []))
      [.drv .xa1 .high, .drv .xa0 .low, .drv .bs1 .low, .drv .bs2 .low, .bdir .output, .bdrv 0x40#8,
      .waitMs 1, .drv .xtal1 .high, .waitMs 1, .drv .xtal1 .low, .waitMs 1, .bdir .input, .drv .xa1 .low,
      .drv .xa0 .high, .drv .bs1 .low, .drv .bs2 .low, .bdir .output, .bdrv 0x62#8, .waitMs 1,
      .drv .xtal1 .high, .waitMs 1, .drv .xtal1 .low, .waitMs 1, .bdir .input, .drv .bs1 .low,
      .drv .bs2 .low, .waitMs 1, .drv .wr .low, .waitMs 1, .drv .wr .high, .smp .rdy .low, .waitUs 100,
      .smp .rdy .low, .waitUs 100, .smp .rdy .low, .drv .rst .high, .bdir .input, .drv .oe .low,
      .dir .oe .input, .drv .wr .low, .dir .wr .input, .drv .xtal1 .low, .dir .xtal1 .input,
      .drv .bs1 .low, .dir .bs1 .input, .drv .bs2 .low, .dir .bs2 .input, .drv .xa0 .low,
      .dir .xa0 .input, .drv .xa1 .low, .dir .xa1 .input, .drv .pagel .low, .dir .pagel .input,
      .drv .vcc .low] = true ∧
    (after 0x220062#24 (parallelSession .atmega [.low, .low, .low] [])).responses =
      [⟨.targetTimeout, 0x00#8⟩] ∧
    IdleLines (after 0x220062#24 (parallelSession .atmega [.low, .low, .low] [])) := by decide

/-- V14. -/
theorem test_pp_rdfuse :
    traceIs (after 0x230100#24 (parallelSession .atmega [] [0xDF#8]))
      [.drv .xa1 .high, .drv .xa0 .low, .drv .bs1 .low, .drv .bs2 .low, .bdir .output, .bdrv 0x04#8,
      .waitMs 1, .drv .xtal1 .high, .waitMs 1, .drv .xtal1 .low, .waitMs 1, .bdir .input, .bdir .input,
      .drv .bs1 .high, .drv .bs2 .high, .drv .oe .low, .waitMs 1, .bsmp 0xDF#8, .drv .oe .high] = true ∧
    (after 0x230100#24 (parallelSession .atmega [] [0xDF#8])).responses = [⟨.ok, 0xDF#8⟩] := by decide

/-- V18: in MODE 1 the role BS2 is line XA1. -/
theorem test_pp_rdfuse_mode1 :
    traceIs (after 0x230200#24 (parallelSession .tiny2313 [] [0xFF#8]))
      [.drv .xa1 .high, .drv .xa0 .low, .drv .bs1 .low, .bdir .output, .bdrv 0x04#8, .waitMs 1,
      .drv .xtal1 .high, .waitMs 1, .drv .xtal1 .low, .waitMs 1, .bdir .input, .bdir .input,
      .drv .bs1 .low, .drv .xa1 .high, .drv .oe .low, .waitMs 1, .bsmp 0xFF#8, .drv .oe .high] = true := by decide

set_option maxRecDepth 20000 in
/-- V31. -/
theorem test_sp_xfer :
    traceIs (after 0x303CA5#24 (serialSession (highThen 8 [])))
      [.drv .bs1 .low, .drv .xa1 .low, .drv .xa0 .low, .waitUs 1, .drv .bs1 .high, .waitUs 1,
      .drv .bs1 .low, .smp .rdy .high, .drv .xa1 .high, .drv .xa0 .low, .waitUs 1, .drv .bs1 .high,
      .waitUs 1, .drv .bs1 .low, .smp .rdy .high, .drv .xa1 .low, .drv .xa0 .low, .waitUs 1,
      .drv .bs1 .high, .waitUs 1, .drv .bs1 .low, .smp .rdy .high, .drv .xa1 .high, .drv .xa0 .high,
      .waitUs 1, .drv .bs1 .high, .waitUs 1, .drv .bs1 .low, .smp .rdy .high, .drv .xa1 .low,
      .drv .xa0 .high, .waitUs 1, .drv .bs1 .high, .waitUs 1, .drv .bs1 .low, .smp .rdy .high,
      .drv .xa1 .low, .drv .xa0 .high, .waitUs 1, .drv .bs1 .high, .waitUs 1, .drv .bs1 .low,
      .smp .rdy .high, .drv .xa1 .high, .drv .xa0 .high, .waitUs 1, .drv .bs1 .high, .waitUs 1,
      .drv .bs1 .low, .smp .rdy .high, .drv .xa1 .low, .drv .xa0 .low, .waitUs 1, .drv .bs1 .high,
      .waitUs 1, .drv .bs1 .low, .smp .rdy .high, .drv .xa1 .high, .drv .xa0 .low, .waitUs 1,
      .drv .bs1 .high, .waitUs 1, .drv .bs1 .low, .drv .xa1 .low, .drv .xa0 .low, .waitUs 1,
      .drv .bs1 .high, .waitUs 1, .drv .bs1 .low, .drv .xa1 .low, .drv .xa0 .low, .waitUs 1,
      .drv .bs1 .high, .waitUs 1, .drv .bs1 .low] = true := by decide

set_option maxRecDepth 20000 in
/-- V32, first and fourth rows. -/
theorem test_sp_xfer_response :
    (after 0x303CA5#24 (serialSession [.high, .low, .high, .low, .low, .high, .high, .low])).result = 0xA6#8 ∧
    (after 0x303CA5#24 (serialSession [.low, .high, .low, .low, .low, .low, .low, .low])).result = 0x40#8 := by
  decide

set_option maxRecDepth 20000 in
/-- V33: the third frame's samples are the response, the first two frames' are discarded. -/
theorem test_sp_rdfuse :
    (after 0x330000#24 (serialSession (highThen 16 [.low, .high, .high, .low, .low, .low, .high, .low]))).responses = [⟨.ok, 0x62#8⟩] ∧
    (after 0x330000#24 (serialSession (highThen 16 [.low, .high, .high, .low, .low, .low, .high, .low]))).trace.length = 225 := by decide

set_option maxRecDepth 20000 in
/-- V34: 305 events, the last five the poll, and RESULT kept. -/
theorem test_sp_wrfuse :
    traceFrom 300 (after 0x3200E4#24 { serialSession (highThen 32 [.low, .low, .high]) with
      result := 0xFF#8 })
      [.smp .rdy .low, .waitUs 100, .smp .rdy .low, .waitUs 100, .smp .rdy .high] = true ∧
    (after 0x3200E4#24 { serialSession (highThen 32 [.low, .low, .high]) with
      result := 0xFF#8 }).responses = [⟨.ok, 0xFF#8⟩] := by decide

set_option maxRecDepth 20000 in
/-- V37. -/
theorem test_sp_wrfuse_timeout :
    traceFrom 300 (after 0x3201D9#24 (serialSession (highThen 32 [.low, .low, .low])))
      [.smp .rdy .low, .waitUs 100, .smp .rdy .low, .waitUs 100, .smp .rdy .low, .drv .rst .high,
      .bdir .input, .drv .oe .low, .dir .oe .input, .drv .wr .low, .dir .wr .input, .drv .bs1 .low,
      .dir .bs1 .input, .drv .xa0 .low, .dir .xa0 .input, .drv .xa1 .low, .dir .xa1 .input,
      .drv .vcc .low] = true ∧
    (after 0x3201D9#24 (serialSession (highThen 32 [.low, .low, .low]))).responses =
      [⟨.targetTimeout, 0x00#8⟩] := by decide

/-- V21: the order of the checks, row by row (word, state before, code). -/
theorem test_refusal_order :
    [after 0x020000#24 (resetWith [] []), after 0x230300#24 (resetWith [] []), after 0x230301#24 (resetWith [] []),
      after 0x303CA5#24 { resetWith [] [] with mode := .atmega }, after 0x020000#24 (parallelSession .atmega [] []),
      after 0x330300#24 (parallelSession .atmega [] []), after 0x230300#24 (parallelSession .atmega [] []),
      after 0x230000#24 (serialSession []), after 0x3203E4#24 (serialSession []),
      after 0x230200#24 { parallelSession .atmega [] [] with cfg := { vectorParams with extEn := false } }].map
      (fun t => (t.err.code, t.trace.length)) =
    [(6#4, 0), (3#4, 0), (2#4, 0), (3#4, 0), (4#4, 0), (5#4, 0), (8#4, 0), (5#4, 0), (8#4, 0), (8#4, 0)] := by decide

/-- V25: the reset latches of the enables under the other polarity. -/
theorem test_polarity : (State.ofParams { vectorParams with vccOn := .low, rstOn := .high }).out =
    ⟨.high, .low, .low, .low, .low, .low, .low, .low, .low, .low, .low, .low⟩ := by decide

/-- R211: reset after two events of PP_SENDCMD: those two events, no response, the lines idle. -/
theorem test_reset_during_operation :
    (nextOf (step { parallelSession .atmega [] [] with hostIn := [.commandThenReset 0x200040#24 2] })).trace =
      [.drv .xa1 .high, .drv .xa0 .low] ∧
    (nextOf (step { parallelSession .atmega [] [] with hostIn := [.commandThenReset 0x200040#24 2] })).responses =
      [] ∧
    IdleLines (nextOf (step { parallelSession .atmega [] [] with hostIn := [.commandThenReset 0x200040#24 2] })) := by
  decide

/-! ### Witnesses: the hypotheses of the statements can be met -/

/-- A timeout: the environment answers every sample of the busy-wait with Low. -/
def deafTarget : State := parallelSession .atmega [.low, .low, .low] []

theorem test_witness_encoding : (Instr.spXfer 0xA5#8 0x3C#8).wellFormed = true ∧
    decode 0x303CA5#24 = some (.spXfer 0xA5#8 0x3C#8) := by decide

/-- One word for each clause of R96: (a), (b), (c) at both ends of its range, (d). -/
theorem test_witness_illegal_words : (∀ o : Opcode, o.code ≠ opField 0x000000#24) ∧
    (Opcode.wrbus.code = opField 0x190100#24 ∧ 0x190100#24 &&& Opcode.wrbus.mask ≠ Opcode.wrbus.pattern) ∧
    (opField 0x100C01#24 = 0x10#8 ∧ aField 0x100C01#24 = 12#8) ∧
    (opField 0x130F00#24 = 0x13#8 ∧ aField 0x130F00#24 = 15#8) ∧
    (opField 0x010003#24 = 0x01#8 ∧ bField 0x010003#24 = 3#8) :=
  ⟨fun o => by cases o <;> decide, by decide, by decide, by decide, by decide⟩

theorem test_witness_step : { resetWith [] [] with hostIn := [.command 0x200040#24] }.busy = false ∧
    decode 0x200040#24 = some (.ppSendcmd 0x40#8) ∧
    decodeTableWord 24 0x1403E8 = some (.delayms 1000#16) := by decide

theorem test_witness_illegal_command :
    ({ resetWith [] [] with hostIn := [.command 0x010003#24] }.busy = false ∧ decode 0x010003#24 = none) ∧
    (Instr.enter.wellFormed = true ∧ ∃ t, exec .enter (resetWith [] []) = .next t) :=
  ⟨by decide, rfl, _, rfl⟩

theorem test_witness_waiting : (resetWith [] []).hostIn = [] ∧
    { resetWith [] [] with busy := true, hostIn := [.command 0x020000#24] }.busy = true ∧
    { resetWith [] [] with busy := true, hostIn := [.commandThenReset 0x020000#24 7] }.hostIn =
      [.commandThenReset 0x020000#24 7] := by decide

theorem test_witness_reset : { deafTarget with busy := true, hostIn := [.reset] }.hostIn = [.reset] ∧
    decode 0x200040#24 = some (.ppSendcmd 0x40#8) ∧ deafTarget.busy = false ∧
    ∃ done, exec (.ppSendcmd 0x40#8) { deafTarget with hostIn := [] } = .next done :=
  ⟨rfl, by decide, rfl, _, rfl⟩

/-- Both clauses of RDLINE and of RDBUS. -/
theorem test_witness_samples :
    (getCell (resetWith [.high] []).dir .start = .input ∧ (resetWith [.high] []).pinIn = [.high]) ∧
    (getCell (resetWith [.high] []).dir .vcc = .output ∧ (resetWith [] []).pinIn = []) ∧
    ((resetWith [] [0xFF#8]).busDir = .input ∧ (resetWith [] [0xFF#8]).busIn = [0xFF#8]) ∧
    ({ resetWith [] [0x00#8] with busDir := .output }.busDir = .output ∧ (resetWith [] []).busIn = []) := by decide

/-- R119, of an operation that completes and of one that is aborted, and a configuration with a wait too long for
`DELAYMS`. -/
theorem test_witness_host_spelling : WaitsFit vectorParams ∧
    (∃ t, exec (.ppSendcmd 0x40#8) (parallelSession .atmega [] []) = .next t) ∧
    (∃ t, exec (.ppWrfuse 0#2 0x62#8) deafTarget = .next t ∧ t.err = .targetTimeout) ∧
    ¬ WaitsFit { vectorParams with tOeMs := 65536 } ∧
    (∃ t, exec (.ppRdfuse 0#2) { deafTarget with cfg := { vectorParams with tOeMs := 65536 } } = .next t) :=
  ⟨by decide, ⟨_, rfl⟩, ⟨_, rfl, by decide⟩, by decide, _, rfl⟩

theorem test_witness_session : (resetWith [] []).entered = false ∧ Mode.hvsp ≠ .unselected ∧
    ((parallelSession .atmega [] []).entered = true ∧ (parallelSession .atmega [] []).mode = .atmega) ∧
    ((parallelSession .tiny2313 [] []).entered = true ∧ (parallelSession .tiny2313 [] []).mode = .tiny2313) ∧
    ((serialSession []).entered = true ∧ (serialSession []).mode = .hvsp) := by decide

/-- ENTER in each of the three modes. -/
theorem test_witness_enter : [Mode.atmega, .tiny2313, .hvsp].map
    (fun m => ({ resetWith [] [] with mode := m }.entered, { resetWith [] [] with mode := m }.mode)) =
      [(false, .atmega), (false, .tiny2313), (false, .hvsp)] := by decide

theorem test_witness_exit : (ExitProviso (parallelSession .atmega [] []) ∧
      ∃ t, exec .exit (parallelSession .atmega [] []) = .next t) ∧
    (BetweenOperations deafTarget ∧ LineDiscipline deafTarget ∧
      ∃ t, exec (.ppWrfuse 0#2 0x62#8) deafTarget = .next t ∧ t.err = .targetTimeout) :=
  ⟨⟨by decide, _, rfl⟩, by decide, by decide, _, rfl, by decide⟩

/-- The busy-wait of PP_WRFUSE at m = 0, at m = `POLL_LIMIT` - 1, and at the time-out (V22). -/
theorem test_witness_pp_fuse : (FuseSel.extended = .extended → vectorParams.extEn = true) ∧
    (parallelSession .atmega [] []).dir.rdy = .input ∧ 0 < pollLimit vectorParams ∧ 2 < pollLimit vectorParams ∧
    (parallelSession .atmega [.high] []).pinIn = List.replicate 0 Level.low ++ Level.high :: [] ∧
    (parallelSession .atmega [.low, .low, .high] []).pinIn = List.replicate 2 Level.low ++ Level.high :: [] ∧
    deafTarget.pinIn = List.replicate (pollLimit deafTarget.cfg) Level.low ++ [] ∧
    (parallelSession .tiny2313 [] [0xFF#8]).busIn = [0xFF#8] ∧ (parallelSession .tiny2313 [] []).busIn = [] := by
  decide

theorem test_witness_select_pattern : (parallelSession .tiny2313 [] []).mode = (parallelSession .tiny2313 [] []).mode ∧
    (∃ t, exec (.ppWrfuse FuseSel.extended.bits 0xFF#8) (parallelSession .tiny2313 [.high] []) = .next t) ∧
    (∃ t, exec (.ppRdfuse FuseSel.extended.bits) (parallelSession .tiny2313 [] []) = .next t) :=
  ⟨rfl, ⟨_, rfl⟩, _, rfl⟩

/-- Where the bus is parked: an operation that runs, one that is refused, and the one about MODE 1. -/
theorem test_witness_hvpp : isHvpp (.ppRdfuse 0#2) = true ∧ refusalOf (.ppRdfuse 0#2) deafTarget = none ∧
    refusalOf (.ppRdfuse 3#2) { deafTarget with busDir := .output } = some .badSelector ∧
    (∃ t, exec (.ppRdfuse 3#2) { deafTarget with busDir := .output } = .next t) ∧
    (∃ t, exec (.ppRdfuse 0#2) deafTarget = .next t) ∧
    (∃ t, exec (.ppRdfuse 0#2) (parallelSession .tiny2313 [] []) = .next t ∧ t.err ≠ .targetTimeout) :=
  ⟨by decide, by decide, by decide, ⟨_, rfl⟩, ⟨_, rfl⟩, _, rfl, by decide⟩

set_option maxRecDepth 20000 in
/-- OE is driven Low in a session by PP_RDFUSE, EXIT and both aborts, and outside one by ENTER. -/
theorem test_witness_oe_low :
    [Instr.ppRdfuse 0#2, .ppWrfuse 0#2 0x62#8, .exit, .enter, .spWrfuse 0#2 0x62#8].all
      (fun i => !isLineOperation i) = true ∧
    (BetweenOperations deafTarget ∧ LineDiscipline deafTarget) ∧
    (BetweenOperations { resetWith [] [] with mode := .atmega } ∧
      LineDiscipline { resetWith [] [] with mode := .atmega }) ∧
    (BetweenOperations (serialSession []) ∧ LineDiscipline (serialSession [])) ∧
    (∃ t, exec .exit deafTarget = .next t ∧ (.drv .oe .low) ∈ eventsOf deafTarget t) ∧
    (∃ t, exec .enter { resetWith [] [] with mode := .atmega } = .next t ∧
      (.drv .oe .low) ∈ eventsOf { resetWith [] [] with mode := .atmega } t) ∧
    (∃ t, exec (.spWrfuse 0#2 0x62#8) (serialSession (highThen 32 [.low, .low, .low])) = .next t ∧
      t.err = .targetTimeout) :=
  ⟨rfl, by decide, by decide, by decide, ⟨_, rfl, by decide⟩, ⟨_, rfl, by decide⟩, _, rfl, by decide⟩

theorem test_witness_pulse_counts : deafTarget.out.xtal1 = .low ∧ deafTarget.out.wr = .high ∧
    deafTarget.out.oe = .high ∧ (∃ t, exec (.ppSendcmd 0x40#8) deafTarget = .next t) ∧
    (∃ t, exec (.ppWrfuse FuseSel.low.bits 0x62#8) (parallelSession .atmega [.high] []) = .next t ∧ t.err = .ok) ∧
    (∃ t, exec (.ppRdfuse FuseSel.low.bits) deafTarget = .next t) :=
  ⟨rfl, rfl, rfl, ⟨_, rfl⟩, ⟨_, rfl, by decide⟩, _, rfl⟩

theorem test_witness_sp_frames : (serialSession []).dir.rdy = .input ∧ (serialSession []).out.bs1 = .low ∧
    (serialSession (highThen 8 [])).pinIn = [Level.high, .high, .high, .high, .high, .high, .high, .high] ++ [] ∧
    24 ≤ (serialSession (highThen 24 [])).pinIn.length := by decide

/-- The busy-wait of SP_WRFUSE at m = 0, at m = `POLL_LIMIT` - 1, and at the time-out. -/
theorem test_witness_sp_wrfuse : (highThen 32 []).length = 32 ∧
    (serialSession (highThen 32 [.high])).pinIn = highThen 32 [] ++ List.replicate 0 Level.low ++ Level.high :: [] ∧
    (serialSession (highThen 32 [.low, .low, .high])).pinIn =
      highThen 32 [] ++ List.replicate 2 Level.low ++ Level.high :: [] ∧
    (serialSession (highThen 32 [.low, .low, .low])).pinIn =
      highThen 32 [] ++ List.replicate (pollLimit vectorParams) Level.low ++ [] := by decide

/-- The seven refusals of R182 and an operation no check refuses. -/
theorem test_witness_refusals :
    [refusalOf (.setmode .hvsp) deafTarget, refusalOf .enter deafTarget, refusalOf .enter (resetWith [] []),
      refusalOf .exit (resetWith [] []), refusalOf (.spXfer 0x00#8 0x00#8) deafTarget,
      refusalOf (.ppWrfuse 3#2 0x00#8) deafTarget, refusalOf (.spRdfuse 3#2) (serialSession []),
      refusalOf (.ppWrfuse 2#2 0x00#8) deafTarget] =
    [some .modeLocked, some .alreadyEntered, some .modeUnselected, some .notEntered, some .modeMismatch,
      some .badSelector, some .badSelector, none] := by decide

theorem test_witness_registers :
    (∃ t, exec (.setmode .hvsp) (resetWith [] []) = .next t ∧ t.mode ≠ (resetWith [] []).mode) ∧
    (∃ t, exec .enter { resetWith [] [] with mode := .hvsp } = .next t ∧ t.entered = true ∧ t.err = .ok) ∧
    (∃ t, exec .exit (serialSession []) = .next t ∧ t.entered = false) ∧
    (∃ t, exec (.ppWrfuse 0#2 0x62#8) deafTarget = .next t ∧ t.err = .targetTimeout ∧
      deafTarget.pcnt ≤ pollLimit deafTarget.cfg) ∧
    (∃ t, exec (.rdline .start) (resetWith [.high] []) = .next t ∧ t.result ≠ (resetWith [.high] []).result) :=
  ⟨⟨_, rfl, by decide⟩, ⟨_, rfl, by decide, by decide⟩, ⟨_, rfl, by decide⟩, ⟨_, rfl, by decide, by decide⟩,
    _, rfl, by decide⟩

set_option maxRecDepth 20000 in
theorem test_witness_resp : hasPoll (.spXfer 0xA5#8 0x3C#8) = false ∧
    ∃ t, exec (.spXfer 0xA5#8 0x3C#8) (serialSession (highThen 8 [])) = .next t ∧
      t.resp ≠ (serialSession (highThen 8 [])).resp :=
  ⟨rfl, _, rfl, by decide⟩

theorem test_witness_direction : isLineOperation (.rdline .start) = true ∧ isLineOperation .enter = false ∧
    BetweenOperations { resetWith [] [] with mode := .hvsp } ∧ LineDiscipline { resetWith [] [] with mode := .hvsp } ∧
    ∃ t, exec .enter { resetWith [] [] with mode := .hvsp } = .next t :=
  ⟨rfl, rfl, by decide, by decide, _, rfl⟩

/-- A disciplined run that a step goes on with, and a host input that is well-behaved. -/
theorem test_witness_disciplined_run :
    DisciplinedRun { deafTarget with hostIn := [.command 0x220062#24, .commandThenReset 0x020000#24 7, .reset] } ∧
    ∃ t, step { deafTarget with
      hostIn := [.command 0x220062#24, .commandThenReset 0x020000#24 7, .reset] } = .next t :=
  ⟨by decide, _, rfl⟩

end Sys2Proof.Tests
end

section
/-! PROOFS, `00_scope.md`: the parameters of R5. -/

namespace Sys2Proof

open Sys2Proof.Machine

/-- R5: `VCC_OFF_LEVEL` is Low when `VCC_ON_LEVEL` is High. -/
theorem vccOffLevel_of_vccOn_high {p : Params} (h : p.vccOn = .high) : vccOffLevel p = .low := by
  simp [vccOffLevel, h, Level.flip]

/-- R5: `RST_OFF_LEVEL` is High when `RST_ON_LEVEL` is Low. -/
theorem rstOffLevel_of_rstOn_low {p : Params} (h : p.rstOn = .low) : rstOffLevel p = .high := by
  simp [rstOffLevel, h, Level.flip]

/-- R5: `POLL_LIMIT` is at least 1, because a configuration holds its predecessor. -/
theorem one_le_pollLimit (p : Params) : 1 ≤ pollLimit p :=
  Nat.le_add_left 1 p.pollLimitPred

@[simp] theorem ofParams_cfg (p : Params) : (State.ofParams p).cfg = p := rfl

theorem reset_cfg : State.reset.cfg = defaultParams := ofParams_cfg defaultParams

/-- Settles O59: each default and fixed wait is read off its definition; the off levels follow from the on levels, the
bound of `POLL_LIMIT` holds for every configuration, and `State.reset` is the reset state under the defaults. -/
theorem defaultParametersAreAsStated : Obligations.DefaultParametersAreAsStated := by
  have hvcc : defaultParams.vccOn = .high := rfl
  have hrst : defaultParams.rstOn = .low := rfl
  exact ⟨rfl, hvcc, vccOffLevel_of_vccOn_high hvcc, hrst, rstOffLevel_of_rstOn_low hrst,
    rfl, rfl, rfl, rfl, rfl, rfl, rfl, rfl, rfl, rfl, rfl, rfl, one_le_pollLimit, reset_cfg⟩

end Sys2Proof
end

section
/-! PROOFS, `10_state.md`: the registers, what a step and an operation do to them, and the invariant between
operations. -/

namespace Sys2Proof

open Sys2Proof.Machine Sys2Proof.Safety

/-! ### What a step does, by the next input (R38, R210, R211) -/

theorem step_noInput {s : State} (h : s.hostIn = []) : step s = .next s := by
  simp [step, takeInput, h]

theorem step_reset {s : State} {rest : List HostInput} (h : s.hostIn = .reset :: rest) :
    step s = .next (resetEngine { s with hostIn := rest }) := by
  simp [step, takeInput, h]

theorem step_command {s : State} {w : CmdWord} {rest : List HostInput} (hb : s.busy = false)
    (h : s.hostIn = .command w :: rest) : step s = runWord w { s with hostIn := rest } := by
  simp [step, takeInput, h, cmdReady, hb]

theorem step_command_busy {s : State} {w : CmdWord} {rest : List HostInput} (hb : s.busy = true)
    (h : s.hostIn = .command w :: rest) : step s = .next s := by
  simp [step, takeInput, h, cmdReady, hb]

theorem step_commandThenReset {s : State} {w : CmdWord} {k : Nat} {rest : List HostInput} (hb : s.busy = false)
    (h : s.hostIn = .commandThenReset w k :: rest) : step s = runWordThenReset w k { s with hostIn := rest } := by
  simp [step, takeInput, h, cmdReady, hb]

theorem step_commandThenReset_busy {s : State} {w : CmdWord} {k : Nat} {rest : List HostInput} (hb : s.busy = true)
    (h : s.hostIn = .commandThenReset w k :: rest) : step s = .next s := by
  simp [step, takeInput, h, cmdReady, hb]

theorem runWord_legal {w : CmdWord} {i : Instr} (h : decode w = some i) (s : State) : runWord w s = exec i s := by
  simp [runWord, h]

theorem runWord_illegal {w : CmdWord} (h : decode w = none) (s : State) :
    runWord w s = .next (refuse .illegalCommand (accept w s)) := by
  simp [runWord, h, illegalWord]

theorem runWordThenReset_next {w : CmdWord} {k : Nat} {s t : State} (h : runWordThenReset w k s = .next t) :
    ∃ done, runWord w s = .next done ∧ t = abandon k s done := by
  unfold runWordThenReset at h
  split at h
  · next done hd => exact ⟨done, hd, by simpa using h.symm⟩
  · cases h
  · cases h

/-- The five ways a step ends: the engine waits, it is reset, it runs a legal word, it refuses an illegal one, or a
word's operation is cut off by a reset. -/
theorem step_cases {s t : State} (h : step s = .next t) :
    (t = s ∧ (s.hostIn = [] ∨ s.busy = true)) ∨
    (∃ rest, s.hostIn = .reset :: rest ∧ t = resetEngine { s with hostIn := rest }) ∨
    (∃ w rest i, s.busy = false ∧ s.hostIn = .command w :: rest ∧ decode w = some i ∧
      exec i { s with hostIn := rest } = .next t) ∨
    (∃ w rest, s.busy = false ∧ s.hostIn = .command w :: rest ∧ decode w = none ∧
      t = refuse .illegalCommand (accept w { s with hostIn := rest })) ∨
    (∃ w k rest done, s.busy = false ∧ s.hostIn = .commandThenReset w k :: rest ∧
      runWord w { s with hostIn := rest } = .next done ∧ t = abandon k { s with hostIn := rest } done) := by
  rcases hq : s.hostIn with _ | ⟨⟨w⟩ | _ | ⟨w, k⟩, rest⟩
  · rw [step_noInput hq] at h
    cases h
    exact .inl ⟨rfl, .inl rfl⟩
  · cases hb : s.busy with
    | true =>
      rw [step_command_busy hb hq] at h
      cases h
      exact .inl ⟨rfl, .inr rfl⟩
    | false =>
      rw [step_command hb hq] at h
      cases hd : decode w with
      | some i => exact .inr (.inr (.inl ⟨w, rest, i, rfl, rfl, hd, runWord_legal hd _ ▸ h⟩))
      | none =>
        rw [runWord_illegal hd] at h
        cases h
        exact .inr (.inr (.inr (.inl ⟨w, rest, rfl, rfl, hd, rfl⟩)))
  · rw [step_reset hq] at h
    cases h
    exact .inr (.inl ⟨rest, rfl, rfl⟩)
  · cases hb : s.busy with
    | true =>
      rw [step_commandThenReset_busy hb hq] at h
      cases h
      exact .inl ⟨rfl, .inr rfl⟩
    | false =>
      rw [step_commandThenReset hb hq] at h
      obtain ⟨done, hd, rfl⟩ := runWordThenReset_next h
      exact .inr (.inr (.inr (.inr ⟨w, k, rest, done, rfl, rfl, hd, rfl⟩)))

/-! ### The checks an operation passes or fails (R181, R182) -/

theorem firstFailing_eq_none {cs : List (Option ErrCode)} : firstFailing cs = none ↔ ∀ c ∈ cs, c = none := by
  induction cs with
  | nil => simp [firstFailing]
  | cons c cs ih => cases c <;> simp [firstFailing, ih]

theorem mem_of_firstFailing_eq_some {cs : List (Option ErrCode)} {e : ErrCode} (h : firstFailing cs = some e) :
    some e ∈ cs := by
  induction cs with
  | nil => cases h
  | cons c cs ih =>
    cases c with
    | none => exact .tail _ (ih h)
    | some x => cases h; exact .head _

@[simp] theorem modeOperandCheck_eq_none {m : Mode} : modeOperandCheck m = none ↔ m ≠ .unselected := by
  simp [modeOperandCheck]

@[simp] theorem modeLockedCheck_eq_none {s : State} : modeLockedCheck s = none ↔ s.entered = false := by
  simp [modeLockedCheck]

@[simp] theorem alreadyEnteredCheck_eq_none {s : State} : alreadyEnteredCheck s = none ↔ s.entered = false := by
  simp [alreadyEnteredCheck]

@[simp] theorem modeUnselectedCheck_eq_none {s : State} : modeUnselectedCheck s = none ↔ s.mode ≠ .unselected := by
  simp [modeUnselectedCheck]

@[simp] theorem notEnteredCheck_eq_none {s : State} : notEnteredCheck s = none ↔ s.entered = true := by
  simp [notEnteredCheck]

/-- No check gives code 0 or the timeout's code 1 (R180, R182). -/
theorem checksOf_ne_ok_ne_timeout (i : Instr) (s : State) :
    ∀ c ∈ checksOf i s, c ≠ some .ok ∧ c ≠ some .targetTimeout := by
  cases i <;>
    simp [checksOf, modeOperandCheck, modeLockedCheck, alreadyEnteredCheck, modeUnselectedCheck, notEnteredCheck,
      parallelCheck, serialCheck, selectorCheck_eq]

/-- A refusal's code is one of 2 to 8 (R180, R183). -/
theorem refusal_ne_ok_ne_timeout {i : Instr} {s : State} {e : ErrCode}
    (h : firstFailing (checksOf i s) = some e) : e ≠ .ok ∧ e ≠ .targetTimeout := by
  simpa using checksOf_ne_ok_ne_timeout i s _ (mem_of_firstFailing_eq_some h)

/-! ### What an operation under way keeps (R24, R26, R38) -/

/-- `u` is a state that the operation of word `w`, accepted in `s`, can go through before its completion: the word's
fields are latched, nothing is answered yet, the trace has only grown. -/
structure UnderWay (w : CmdWord) (s u : State) : Prop where
  opc : u.opc = opField w
  opa : u.opa = aField w
  opb : u.opb = bField w
  responses : u.responses = s.responses
  cfg : u.cfg = s.cfg
  hostIn : u.hostIn = s.hostIn
  trace : ∃ events, u.trace = s.trace ++ events

theorem underWay_accept (w : CmdWord) (s : State) : UnderWay w s (accept w s) :=
  ⟨rfl, rfl, rfl, rfl, rfl, rfl, [], by simp⟩

/-- What every entry of a list leaves alone, the list leaves alone. -/
theorem runList_field {α : Type} (f : State → α) (p : List Action) (r : Run)
    (h : ∀ a ∈ p, ∀ q : Run, f (performAction q a).st = f q.st) : f (runList p r).st = f r.st :=
  runList_keeps (fun s => f s = f r.st) p r (fun a ha q hq => (h a ha q).trans hq) rfl

theorem underWay_run {w : CmdWord} {s u : State} (p : List Action) (h : UnderWay w s u) :
    UnderWay w s (run p u).st where
  opc := (runList_field (·.opc) p _ fun a _ q => performAction_opc q a).trans h.opc
  opa := (runList_field (·.opa) p _ fun a _ q => performAction_opa q a).trans h.opa
  opb := (runList_field (·.opb) p _ fun a _ q => performAction_opb q a).trans h.opb
  responses := (runList_field (·.responses) p _ fun a _ q => performAction_responses q a).trans h.responses
  cfg := (runList_field (·.cfg) p _ fun a _ q => performAction_cfg q a).trans h.cfg
  hostIn := (runList_field (·.hostIn) p _ fun a _ q => performAction_hostIn q a).trans h.hostIn
  trace := by
    obtain ⟨before, hb⟩ := h.trace
    obtain ⟨events, he⟩ := runList_trace p ⟨u, 0x00#8, false⟩
    exact ⟨before ++ events, by rw [run, he, hb, List.append_assoc]⟩

/-- The abort completes with code 1 what its exit list leaves (R187). -/
theorem abort_completes {w : CmdWord} {s u : State} (h : UnderWay w s u) :
    ∃ v, abort u = complete .targetTimeout v ∧ UnderWay w s v :=
  ⟨_, rfl, underWay_run _ { h with }⟩

/-- Every operation ends in a completion of a state it went through. -/
theorem operate_completes (i : Instr) (plan : Except ErrCode (List Action)) (s : State) :
    ∃ e u, operate i plan s = .next (complete e u) ∧ UnderWay (encode i) s u := by
  have ha := underWay_accept (encode i) s
  cases plan with
  | error e => exact ⟨e, _, rfl, ha⟩
  | ok p =>
    have hr := underWay_run p ha
    simp only [operate, conduct]
    split
    · obtain ⟨v, hv, hu⟩ := abort_completes hr
      exact ⟨.targetTimeout, v, by rw [hv], hu⟩
    · exact ⟨.ok, _, rfl, hr⟩

theorem exec_completes (i : Instr) (s : State) :
    ∃ e u, exec i s = .next (complete e u) ∧ UnderWay (encode i) s u :=
  exec_eq i s ▸ operate_completes i _ s

/-- Settles O52: the completion of `exec_completes` presents the one response and makes the engine ready; the rest is
as the operation under way left it. -/
theorem everyOperationCompletesWithOneResponse : Obligations.EveryOperationCompletesWithOneResponse := by
  intro i s
  obtain ⟨e, u, hx, hu⟩ := exec_completes i s
  obtain ⟨events, ht⟩ := hu.trace
  exact ⟨_, events, hx, by simp [hu.responses], rfl, rfl, ht, hu.cfg, hu.hostIn⟩

/-- What a finished operation's next state latches (R24). -/
theorem exec_latches {i : Instr} {s t : State} (h : exec i s = .next t) :
    t.opc = opField (encode i) ∧ t.opa = aField (encode i) ∧ t.opb = bField (encode i) := by
  obtain ⟨e, u, hx, hu⟩ := exec_completes i s
  cases hx.symm.trans h
  exact ⟨hu.opc, hu.opa, hu.opb⟩

/-- After an operation the engine is ready, with `upc` 0 (R26, R38). -/
theorem exec_ready {i : Instr} {s t : State} (h : exec i s = .next t) : t.busy = false ∧ t.upc = 0#9 := by
  obtain ⟨e, u, hx, -⟩ := exec_completes i s
  cases hx.symm.trans h
  exact ⟨rfl, rfl⟩

/-! ### The abort's registers (R187) -/

@[simp] theorem abort_mode (s : State) : (abort s).mode = s.mode := by rw [abort_eq]

@[simp] theorem abort_entered (s : State) : (abort s).entered = false := by rw [abort_eq]

@[simp] theorem abort_result (s : State) : (abort s).result = s.result := by rw [abort_eq]

@[simp] theorem abort_resp (s : State) : (abort s).resp = s.resp := by rw [abort_eq]

@[simp] theorem abort_err (s : State) : (abort s).err = .targetTimeout := by rw [abort_eq]

/-! ### The registers an operation's list writes (R21, R22, R24) -/

theorem run_listOf_mode {i : Instr} (h : ∀ m, i ≠ .setmode m) (s u : State) :
    (run (listOf i s) u).st.mode = u.mode :=
  runList_field (·.mode) _ _ fun a ha q => performAction_mode q a fun m hm => by
    simpa [hm, allowed, h m] using listOf_allowed i s a ha

theorem run_listOf_entered {i : Instr} (hn : i ≠ .enter) (hx : i ≠ .exit) (s u : State) :
    (run (listOf i s) u).st.entered = u.entered :=
  runList_field (·.entered) _ _ fun a ha q => performAction_entered q a fun e he => by
    cases e <;> simpa [he, allowed, hn, hx] using listOf_allowed i s a ha

theorem run_listOf_result {i : Instr} (h : returnsValue i = false) (s u : State) :
    (run (listOf i s) u).st.result = u.result :=
  runList_field (·.result) _ _ fun a ha q => by
    have hal := listOf_allowed i s a ha
    exact performAction_result q a (fun hs => by simp [hs, allowed, h] at hal)
      (fun hr => by simp [hr, allowed, h] at hal)

theorem run_listOf_resp {i : Instr} (h : isHvsp i = false) (s u : State) :
    (run (listOf i s) u).st.resp = u.resp :=
  runList_field (·.resp) _ _ fun a ha q => by
    have hal := listOf_allowed i s a ha
    exact performAction_resp q a (fun hc => by simp [hc, allowed, h] at hal)
      (fun k hk => by simp [hk, allowed, h] at hal)

/-- `ENTER` ends with `ENTERED <- 1` (R131, R132). -/
theorem run_enter_entered (s u : State) : (run (listOf .enter s) u).st.entered = true := by
  have hlist : ∀ a ∈ enterList s.mode s.cfg, ∀ l, a ≠ .poll l := fun a ha l hl => by
    simpa [hl, allowed, hasPoll] using listOf_allowed .enter s a (List.mem_append_left _ ha)
  have hrun := runList_no_timeout _ ⟨u, 0x00#8, false⟩ rfl hlist
  simp [run, listOf, runList_append, stepRun, hrun, performAction]

/-- `EXIT` starts with `ENTERED <- 0`, and its exit list leaves it so (R133). -/
theorem run_exit_entered (s u : State) (hc : u.cfg = s.cfg) (hd : u.dir = s.dir) :
    (run (listOf .exit s) u).st.entered = false := by
  obtain ⟨n, hr⟩ := exitList_run { u with entered := false } 0x00#8
  simp only at hr
  simp [run, listOf, performAction, ← hc, ← hd, hr]

/-! ### The registers an operation leaves (R21, R22, R24) -/

theorem exec_mode {i : Instr} {s t : State} (h : exec i s = .next t) (hi : ∀ m, i ≠ .setmode m) :
    t.mode = s.mode := by
  obtain ⟨e, -, rfl⟩ | ⟨-, r, rfl, ⟨-, rfl⟩ | ⟨-, rfl⟩⟩ := exec_cases h
  · rfl
  · exact run_listOf_mode hi s _
  · exact (abort_mode _).trans (run_listOf_mode hi s _)

/-- A completed `ENTER` started outside a session, with a mode (R182). -/
theorem enter_ok_checks {s t : State} (h : exec .enter s = .next t) (he : t.err = .ok) :
    s.entered = false ∧ s.mode ≠ .unselected := by
  obtain ⟨e, hc, rfl⟩ | ⟨hc, -⟩ := exec_cases h
  · exact absurd he (refusal_ne_ok_ne_timeout hc).1
  · simpa [firstFailing_eq_none, checksOf] using hc

/-- Settles O49: no other operation's list writes MODE, and a `SETMODE` that does passed both its checks. -/
theorem onlySetmodeWritesMode : Obligations.OnlySetmodeWritesMode := by
  intro i s t h hne
  obtain ⟨m, rfl⟩ : ∃ m, i = .setmode m := by
    by_contra hi
    exact hne (exec_mode h fun m hm => hi ⟨m, hm⟩)
  obtain ⟨e, -, rfl⟩ | ⟨hc, r, rfl, ⟨-, rfl⟩ | ⟨ht, -⟩⟩ := exec_cases h
  · exact absurd rfl hne
  · obtain ⟨hm, hs⟩ : m ≠ .unselected ∧ s.entered = false := by
      simpa [firstFailing_eq_none, checksOf] using hc
    exact ⟨m, rfl, hm, rfl, hs, rfl⟩
  · cases (run_no_timeout rfl s _).symm.trans ht

/-- `EXIT` is refused only outside a session (R182). -/
theorem exit_refused_entered {s : State} {e : ErrCode} (h : firstFailing (checksOf .exit s) = some e) :
    s.entered = false := by
  cases hs : s.entered
  · rfl
  · simp [checksOf, notEnteredCheck, hs, firstFailing] at h

/-- Settles O50: a refusal leaves `ENTERED`; a list that runs to its end writes it in `ENTER` and `EXIT` only; the
abort clears it. -/
theorem onlyEnterExitAndAbortWriteEntered : Obligations.OnlyEnterExitAndAbortWriteEntered := by
  intro i s t h
  obtain ⟨e, hc, rfl⟩ | ⟨-, r, rfl, ⟨-, rfl⟩ | ⟨-, rfl⟩⟩ := exec_cases h
  · obtain ⟨hok, htime⟩ := refusal_ne_ok_ne_timeout hc
    have hexit : i = .exit → s.entered = false := by rintro rfl; exact exit_refused_entered hc
    simp_all [completed]
  · by_cases hn : i = .enter
    · subst hn
      simp [run_enter_entered]
    · by_cases hx : i = .exit
      · subst hx
        simp [run_exit_entered]
      · simp_all [run_listOf_entered hn hx]
  · simp

/-- An operation with a busy-wait returns no value (R144, R163). -/
theorem returnsValue_of_hasPoll {i : Instr} (h : hasPoll i = true) : returnsValue i = false := by
  cases i <;> simp_all [hasPoll, returnsValue]

/-- An aborted operation is one with a busy-wait (R186). -/
theorem hasPoll_of_timedOut {i : Instr} {s u : State} (h : (run (listOf i s) u).timedOut = true) :
    hasPoll i = true := by
  cases hp : hasPoll i
  · cases (run_no_timeout hp s u).symm.trans h
  · rfl

/-- RESULT is kept by every refusal, by every abort, and by an operation that returns no value. -/
theorem exec_result {i : Instr} {s t : State} (h : exec i s = .next t)
    (hi : ¬ (returnsValue i = true ∧ t.err = .ok)) : t.result = s.result := by
  obtain ⟨e, -, rfl⟩ | ⟨-, r, rfl, ⟨-, rfl⟩ | ⟨ht, rfl⟩⟩ := exec_cases h
  · rfl
  · exact run_listOf_result (by simpa using hi) s _
  · exact (abort_result _).trans (run_listOf_result (returnsValue_of_hasPoll (hasPoll_of_timedOut ht)) s _)

/-- RESP is kept by every operation that sends no frame. -/
theorem exec_resp {i : Instr} {s t : State} (h : exec i s = .next t) (hi : isHvsp i = false) : t.resp = s.resp := by
  obtain ⟨e, -, rfl⟩ | ⟨-, r, rfl, ⟨-, rfl⟩ | ⟨-, rfl⟩⟩ := exec_cases h
  · rfl
  · exact run_listOf_resp hi s _
  · exact (abort_resp _).trans (run_listOf_resp hi s _)

/-- Settles O51: the fields are latched at acceptance, and what keeps RESULT and RESP leaves only the stated writers. -/
theorem dataRegistersChangeAsStated : Obligations.DataRegistersChangeAsStated := by
  intro i s t h
  refine ⟨exec_latches h, fun hr => ?_, fun hr => ?_⟩
  · by_contra hi
    exact hr (exec_result h hi)
  · by_contra hi
    exact hr (exec_resp h (Bool.eq_false_of_not_eq_true hi))

/-! ### The invariant between operations (R26, R182) -/

/-- No operation leaves a session without a mode: `ENTER` checks for one, and no `SETMODE` runs in a session. -/
theorem exec_session_has_mode {i : Instr} {s t : State} (h : exec i s = .next t)
    (hs : s.entered = true → s.mode ≠ .unselected) (ht : t.entered = true) : t.mode ≠ .unselected := by
  cases hse : s.entered with
  | true =>
    have hmode : t.mode = s.mode := by
      by_contra hne
      obtain ⟨_, _, _, _, hout, _⟩ := onlySetmodeWritesMode i s t h hne
      cases hse.symm.trans hout
    exact hmode ▸ hs hse
  | false =>
    obtain ⟨rfl, he⟩ := (onlyEnterExitAndAbortWriteEntered i s t h).1 hse ht
    rw [exec_mode h (by simp)]
    exact (enter_ok_checks h he).2

theorem exec_keeps_betweenOperations {i : Instr} {s t : State} (hs : s.entered = true → s.mode ≠ .unselected)
    (h : exec i s = .next t) : BetweenOperations t :=
  ⟨(exec_ready h).1, (exec_ready h).2, exec_session_has_mode h hs⟩

theorem betweenOperations_resetEngine (s : State) : BetweenOperations (resetEngine s) := by
  simp [BetweenOperations]

theorem betweenOperations_abandon (k : Nat) (s done : State) : BetweenOperations (abandon k s done) := by
  simp [BetweenOperations]

/-- Settles O55, by the ways a step ends: a reset gives a state outside a session, an operation keeps the invariant, and
a wait or the refusal of an illegal word writes neither MODE nor `ENTERED`. -/
theorem stepKeepsBetweenOperations : Obligations.StepKeepsBetweenOperations := by
  intro s t hs h
  have hmode := hs.2.2
  obtain ⟨rfl, -⟩ | ⟨rest, -, rfl⟩ | ⟨w, rest, i, -, -, -, hx⟩ | ⟨w, rest, -, -, -, rfl⟩ |
    ⟨w, k, rest, done, -, -, -, rfl⟩ := step_cases h
  · exact hs
  · exact betweenOperations_resetEngine _
  · exact exec_keeps_betweenOperations (s := { s with hostIn := rest }) hmode hx
  · exact ⟨rfl, rfl, hmode⟩
  · exact betweenOperations_abandon k _ done

/-- Settles O56: the reset state is what a reset of it gives. -/
theorem resetIsBetweenOperations : Obligations.ResetIsBetweenOperations :=
  betweenOperations_resetEngine State.reset

/-! ### The reset state (R41, R42) -/

theorem ofParams_dir (p : Params) (l : Line) :
    getCell (State.ofParams p).dir l = if l = .vcc ∨ l = .rst then .output else .input := by
  cases l <;> rfl

theorem ofParams_out (p : Params) (l : Line) : getCell (State.ofParams p).out l =
    if l = .vcc then vccOffLevel p else if l = .rst then rstOffLevel p else .low := by
  cases l <;> rfl

theorem idleLines_ofParams (p : Params) : IdleLines (State.ofParams p) := by
  refine ⟨rfl, rfl, rfl, rfl, ?_, rfl⟩
  simp [ofParams_dir, ofParams_out]

/-- Idle lines outside a session are within the line discipline: R134's proviso asks no more of them (R42). -/
theorem lineDiscipline_of_idleLines {s : State} (h : IdleLines s) (he : s.entered = false) : LineDiscipline s := by
  obtain ⟨hvcc, hrst, -, -, hlines, hbus⟩ := h
  obtain ⟨hsd, hso⟩ := hlines .start (by simp)
  obtain ⟨hrd, hro⟩ := hlines .rdy (by simp)
  have hexit : ∀ l ∈ exitLines, l ∈ [Line.oe, .wr, .xtal1, .rdy, .bs1, .bs2, .xa0, .xa1, .pagel, .start] := by
    decide
  exact ⟨⟨hvcc, hrst, hsd, hso, fun l hl _ => (hlines l (hexit l hl)).2⟩, hrd, hro, hbus, by simp [he]⟩

/-- Settles O11: the registers are read off `State.ofParams`; the lines are `ofParams_dir` and `ofParams_out`. -/
theorem resetValuesAreAsStated : Obligations.ResetValuesAreAsStated := by
  intro p
  exact ⟨rfl, rfl, rfl, rfl, rfl, rfl, rfl, rfl, rfl, rfl, rfl, rfl, rfl, ofParams_dir p, ofParams_out p,
    idleLines_ofParams p, rfl⟩

/-- Settles O58: the reset state has idle lines and no session, and the queues do not touch either. -/
theorem resetStartsADisciplinedRun : Obligations.ResetStartsADisciplinedRun := by
  intro p host pins buses hhost
  exact ⟨⟨rfl, rfl, by simp [State.ofParams]⟩, lineDiscipline_of_idleLines (idleLines_ofParams p) rfl, hhost⟩

/-! ### The command port (R38, R71) -/

/-- Settles O6: a ready engine takes the word, and a legal word runs its instruction. -/
theorem stepRunsTheDecodedInstruction : Obligations.StepRunsTheDecodedInstruction := by
  intro s w rest i hb hq hd
  rw [step_command hb hq, runWord_legal hd]

/-- Settles O7: the placed word is the next one of a ready engine, and taking it off gives the queue back. -/
theorem stepAfterWithFetchWordRunsTheWord : Obligations.StepAfterWithFetchWordRunsTheWord := fun s _ _ i hd =>
  stepRunsTheDecodedInstruction _ _ s.hostIn i rfl rfl hd

/-- Settles O9, by the three inputs that a step leaves where they are. -/
theorem engineWaitsAndHoldsOffCommands : Obligations.EngineWaitsAndHoldsOffCommands :=
  ⟨fun _ => step_noInput, fun _ _ _ => step_command_busy, fun _ _ _ _ => step_commandThenReset_busy⟩

/-! ### Lines a list does not touch -/

/-- An entry that does not drive line `l` and changes no direction. -/
def sparesLine (l : Line) : Action → Bool
  | .drv m _ => decide (m ≠ l)
  | .dir _ _ => false
  | _ => true

/-- A busy-wait drives no line. -/
theorem not_isDriveOf_of_isPollEvent {l m : Line} {e : Event} (h : isPollEvent m e = true) :
    isDriveOf l e = false := by
  cases e <;> simp_all [isPollEvent, isDriveOf]

/-- An entry that spares line `l` adds only events that do not drive it. -/
theorem performAction_trace_of_spares {l : Line} {a : Action} (h : sparesLine l a = true) (q : Run) :
    ∃ events, (performAction q a).st.trace = q.st.trace ++ events ∧
      events.all (fun e => !isDriveOf l e) = true := by
  cases a with
  | poll m =>
    obtain ⟨events, he, hall⟩ := poll_trace m q.st
    refine ⟨events, by simp only [performAction]; split <;> simp [he], ?_⟩
    simp only [List.all_eq_true, Bool.not_eq_true'] at hall ⊢
    exact fun e hm => not_isDriveOf_of_isPollEvent (hall e hm)
  | _ => simp_all [performAction, sparesLine, isDriveOf]

section

variable {l : Line} {p : List Action} (h : p.all (sparesLine l) = true)

include h

theorem run_out_of_spares (s : State) : getCell (run p s).st.out l = getCell s.out l :=
  runList_field (fun u => getCell u.out l) p _ fun a ha q => by
    have hs := List.all_eq_true.mp h a ha
    cases a with
    | drv m v =>
      have hne : l ≠ m := by rintro rfl; simp [sparesLine] at hs
      simp [performAction, hne]
    | _ => rw [performAction_out q _ (by simp)]

theorem run_dir_of_spares (s : State) : (run p s).st.dir = s.dir :=
  runList_field (·.dir) p _ fun a ha q => performAction_dir q a fun m d hd => by
    simpa [hd, sparesLine] using List.all_eq_true.mp h a ha

theorem run_trace_of_spares (s : State) : ∃ events, (run p s).st.trace = s.trace ++ events ∧
    events.all (fun e => !isDriveOf l e) = true := by
  refine runList_keeps (fun u => ∃ events, u.trace = s.trace ++ events ∧
    events.all (fun e => !isDriveOf l e) = true) p _ ?_ ⟨[], by simp⟩
  rintro a ha q ⟨before, hb, hallb⟩
  obtain ⟨events, he, halle⟩ := performAction_trace_of_spares (List.all_eq_true.mp h a ha) q
  exact ⟨before ++ events, by rw [he, hb, List.append_assoc], by rw [List.all_append, hallb, halle]; rfl⟩

end

/-- In MODE 1 the roles of an HVPP operation are carried by other lines than BS2 and PAGEL (R25). -/
theorem hvpp_mode1_spares {i : Instr} {s : State} (hi : isHvpp i = true) (hm : s.mode = .tiny2313) {l : Line}
    (hl : l = .bs2 ∨ l = .pagel) : (listOf i s).all (sparesLine l) = true := by
  have hload : ∀ xa1 xa0 b, (loadList .tiny2313 s.cfg xa1 xa0 b).all (sparesLine l) = true := by
    obtain rfl | rfl := hl <;> intros <;> rfl
  have hwrite : ∀ f v, (ppWriteList .tiny2313 s.cfg f v).all (sparesLine l) = true := by
    obtain rfl | rfl := hl <;> intros <;> rfl
  have hread : ∀ f, (ppReadList .tiny2313 s.cfg f).all (sparesLine l) = true := by
    obtain rfl | rfl := hl <;> intros <;> rfl
  cases i with
  | ppSendcmd b => simpa only [listOf, hm, sendCommandList] using hload .high .low b
  | ppLoaddata b => simpa only [listOf, hm, loadFuseDataList] using hload .low .high b
  | ppWrfuse sel v => simpa only [listOf, hm] using all_withFuse _ _ sel _ fun f => hwrite f v
  | ppRdfuse sel => simpa only [listOf, hm] using all_withFuse _ _ sel _ hread
  | _ => cases hi

/-- An operation whose list spares line `l`, unless it is aborted. -/
theorem exec_spares {i : Instr} {s t : State} {l : Line} (h : exec i s = .next t) (he : t.err ≠ .targetTimeout)
    (hs : (listOf i s).all (sparesLine l) = true) :
    (eventsOf s t).all (fun e => !isDriveOf l e) = true ∧ getCell t.out l = getCell s.out l ∧ t.dir = s.dir := by
  obtain ⟨e, -, rfl⟩ | ⟨-, r, rfl, ⟨-, rfl⟩ | ⟨-, rfl⟩⟩ := exec_cases h
  · simp [eventsOf, completed]
  · obtain ⟨events, ht, hall⟩ := run_trace_of_spares hs (accept (encode i) s)
    rw [accept_encode] at ht
    refine ⟨?_, run_out_of_spares hs _, run_dir_of_spares hs _⟩
    rw [eventsOf, complete_trace, ht]
    simpa using hall
  · exact absurd (abort_err _) he

/-- Settles O38: the list of an HVPP operation in MODE 1 spares both lines. -/
theorem mode1OperationsLeaveBs2AndPagelAlone : Obligations.Mode1OperationsLeaveBs2AndPagelAlone := by
  intro i s t hi hm h he
  obtain ⟨hbs2, hbs2Out, hdir⟩ := exec_spares h he (hvpp_mode1_spares hi hm (.inl rfl))
  obtain ⟨hpagel, hpagelOut, -⟩ := exec_spares h he (hvpp_mode1_spares hi hm (.inr rfl))
  refine ⟨?_, hbs2Out, hpagelOut, hdir⟩
  rw [List.all_eq_true] at hbs2 hpagel ⊢
  exact fun e hmem => by rw [hbs2 e hmem, hpagel e hmem]; rfl

end Sys2Proof
end

section
/-! PROOFS, `30_encoding.md`: the decoder and the encoder, the illegal words, and the pseudo-instructions. -/

namespace Sys2Proof

open Sys2Proof.Machine Sys2Proof.Safety

/-! ### Operand encodings: when a byte reads as a value (R82) -/

theorem lineOperand_eq_some_iff {a : Byte} {l : Line} : lineOperand? a = some l ↔ a = l.id :=
  ⟨lineOperand_some, fun h => h ▸ lineOperand_id l⟩

theorem directionOperand_eq_some_iff {b : Byte} {d : Direction} : directionOperand? b = some d ↔ b = d.code :=
  ⟨directionOperand_some, fun h => h ▸ directionOperand_code d⟩

theorem levelOperand_eq_some_iff {b : Byte} {v : Level} : levelOperand? b = some v ↔ b = v.code :=
  ⟨levelOperand_some, fun h => h ▸ levelOperand_code v⟩

theorem modeOperand_eq_some_iff {b : Byte} {m : Mode} :
    modeOperand? b = some m ↔ b = m.code ∧ m ≠ .unselected :=
  ⟨modeOperand_some, fun ⟨hb, hm⟩ => hb ▸ modeOperand_code m hm⟩

theorem selectorOperand_eq_some_iff {a : Byte} {sel : BitVec 2} :
    selectorOperand? a = some sel ↔ a = sel.setWidth 8 :=
  ⟨selectorOperand_some, fun h => h ▸ selectorOperand_setWidth sel⟩

theorem code_injective : Function.Injective Opcode.code := fun o o' h =>
  Option.some.inj (by rw [← opcode_code o, h, opcode_code])

/-! ### The decoder is the inverse of the encoder (R80, R81) -/

/-- The operand fields of a well-formed instruction are read back by its own row. -/
theorem decodeOperands_of_instr {i : Instr} (hw : i.wellFormed = true) :
    decodeOperands i.opcode i.aOperand i.bOperand = some i := by
  cases i <;>
    simp_all [decodeOperands, Instr.opcode, Instr.aOperand, Instr.bOperand, Instr.wellFormed, unused?,
      append_extract]

/-- A row reads an instruction from that instruction's own fields only. The rows are grouped by the shape of their
operands. -/
theorem fields_of_decodeOperands {o : Opcode} {a b : Byte} {i : Instr} (h : decodeOperands o a b = some i) :
    o = i.opcode ∧ a = i.aOperand ∧ b = i.bOperand ∧ i.wellFormed = true := by
  cases o <;>
    simp only [decodeOperands, unused_some, Option.map_eq_some_iff, Option.bind_eq_some_iff,
      lineOperand_eq_some_iff, directionOperand_eq_some_iff, levelOperand_eq_some_iff, modeOperand_eq_some_iff,
      selectorOperand_eq_some_iff, Option.some.injEq] at h
  case setmode =>
    obtain ⟨rfl, m, ⟨rfl, hm⟩, rfl⟩ := h
    exact ⟨rfl, rfl, rfl, decide_eq_true hm⟩
  case enter | exit | rdbus =>
    obtain ⟨rfl, rfl, rfl⟩ := h
    exact ⟨rfl, rfl, rfl, rfl⟩
  case setdir | wrline =>
    obtain ⟨l, rfl, x, rfl, rfl⟩ := h
    exact ⟨rfl, rfl, rfl, rfl⟩
  case rdline | setbusdir | ppRdfuse | spRdfuse =>
    obtain ⟨rfl, x, rfl, rfl⟩ := h
    exact ⟨rfl, rfl, rfl, rfl⟩
  case strobe | ppWrfuse | spWrfuse =>
    obtain ⟨x, rfl, rfl⟩ := h
    exact ⟨rfl, rfl, rfl, rfl⟩
  case wrbus | ppSendcmd | ppLoaddata =>
    obtain ⟨rfl, rfl⟩ := h
    exact ⟨rfl, rfl, rfl, rfl⟩
  case delayms | delayus =>
    obtain ⟨ha, hb⟩ := extract_append a b
    subst h
    exact ⟨rfl, ha.symm, hb.symm, rfl⟩
  case spXfer =>
    subst h
    exact ⟨rfl, rfl, rfl, rfl⟩

theorem eq_packWord_iff {w : CmdWord} {op a b : Byte} :
    w = packWord op a b ↔ opField w = op ∧ aField w = a ∧ bField w = b := by
  rw [← packWord_inj, packWord_fields]

/-- The decoder and the encoder are inverse to each other on the legal words and the well-formed instructions. -/
theorem decode_eq_some_iff {w : CmdWord} {i : Instr} : decode w = some i ↔ encode i = w ∧ i.wellFormed = true := by
  constructor
  · intro h
    obtain ⟨o, ho, hi⟩ := Option.bind_eq_some_iff.mp h
    obtain ⟨rfl, ha, hb, hw⟩ := fields_of_decodeOperands hi
    exact ⟨(eq_packWord_iff.mpr ⟨opcode_some ho, ha, hb⟩).symm, hw⟩
  · rintro ⟨rfl, hw⟩
    simp [decode, encode, decodeOperands_of_instr hw]

/-- Settles O1: `decode_eq_some_iff`, at the word of the instruction. -/
theorem decodeOfEncodeIsTheInstruction : Obligations.DecodeOfEncodeIsTheInstruction := fun _ hw =>
  decode_eq_some_iff.mpr ⟨rfl, hw⟩

/-- Settles O2: the other direction of `decode_eq_some_iff`. -/
theorem encodeOfDecodeIsTheWord : Obligations.EncodeOfDecodeIsTheWord := fun _ _ => decode_eq_some_iff.mp

/-! ### Operand encodings: when a byte reads as no value (R96) -/

theorem lineOperand_eq_none_iff {a : Byte} :
    lineOperand? a = none ↔ a &&& 0xF0#8 ≠ 0#8 ∨ a = 12#8 ∨ a = 13#8 ∨ a = 14#8 ∨ a = 15#8 := by
  revert a; decide

theorem directionOperand_eq_none_iff {b : Byte} : directionOperand? b = none ↔ b &&& 0xFE#8 ≠ 0#8 := by
  revert b; decide

theorem levelOperand_eq_none_iff {b : Byte} : levelOperand? b = none ↔ b &&& 0xFE#8 ≠ 0#8 := by
  revert b; decide

theorem modeOperand_eq_none_iff {b : Byte} : modeOperand? b = none ↔ b &&& 0xFC#8 ≠ 0#8 ∨ b = 3#8 := by
  revert b; decide

theorem selectorOperand_eq_none_iff {a : Byte} : selectorOperand? a = none ↔ a &&& 0xFC#8 ≠ 0#8 := by
  revert a; decide

theorem opcode_eq_none_iff {op : Byte} : opcode? op = none ↔ ∀ o : Opcode, o.code ≠ op := by
  have hall : ∀ o : Opcode, o ∈ Opcode.all := by intro o; cases o <;> decide
  simp [opcode?, hall]

/-! ### The mask and match columns, field by field (R81) -/

/-- Every row requires its whole opcode; the bits it requires of the operand fields are zero. -/
theorem mask_eq_and_pattern_eq (o : Opcode) :
    o.mask = packWord 0xFF#8 (aField o.mask) (bField o.mask) ∧ o.pattern = packWord o.code 0#8 0#8 := by
  cases o <;> decide

theorem and_mask_eq_pattern_iff {o : Opcode} {w : CmdWord} : w &&& o.mask = o.pattern ↔
    opField w = o.code ∧ aField w &&& aField o.mask = 0#8 ∧ bField w &&& bField o.mask = 0#8 := by
  obtain ⟨hmask, hpattern⟩ := mask_eq_and_pattern_eq o
  conv_lhs => rw [← packWord_fields w, hmask, hpattern, packWord_and, packWord_inj, Laws.OwnRow.full_mask]

/-! ### The illegal words (R96) -/

theorem bind_map_eq_none_iff {α β γ : Type*} {x : Option α} {y : Option β} {f : α → β → γ} :
    (x.bind fun l => y.map (f l)) = none ↔ x = none ∨ y = none := by
  cases x <;> simp

/-- R96 (b), (c), (d), for the operand fields of one row: each operand is illegal as its own reading above
says, and an unused field when it is not zero. -/
theorem decodeOperands_eq_none_iff {o : Opcode} {a b : Byte} : decodeOperands o a b = none ↔
    (a &&& aField o.mask ≠ 0#8 ∨ b &&& bField o.mask ≠ 0#8) ∨
    ((o.code = 0x10#8 ∨ o.code = 0x11#8 ∨ o.code = 0x12#8 ∨ o.code = 0x13#8) ∧
      (a = 12#8 ∨ a = 13#8 ∨ a = 14#8 ∨ a = 15#8)) ∨
    (o.code = 0x01#8 ∧ b = 3#8) := by
  cases o <;>
    simp only [decodeOperands, unused_none, bind_map_eq_none_iff, Option.map_eq_none_iff, lineOperand_eq_none_iff,
      directionOperand_eq_none_iff, levelOperand_eq_none_iff, modeOperand_eq_none_iff,
      selectorOperand_eq_none_iff] <;>
    simp [Opcode.code, Opcode.mask, aField, bField, Laws.OwnRow.full_mask, or_assoc, or_comm, or_left_comm]

theorem decode_of_opField {w : CmdWord} {o : Opcode} (h : opField w = o.code) :
    decode w = decodeOperands o (aField w) (bField w) := by
  simp [decode, h]

/-- Settles O3, by whether the opcode is one of the nineteen; if it is, its row decides (b), (c) and (d). -/
theorem illegalWordsAreThoseOfTheOpcodeMap : Obligations.IllegalWordsAreThoseOfTheOpcodeMap := by
  intro w
  cases ho : opcode? (opField w) with
  | none => simpa [decode, ho] using .inl (opcode_eq_none_iff.mp ho)
  | some o =>
    have hop : opField w = o.code := opcode_some ho
    have hknown : ¬ ∀ o' : Opcode, o'.code ≠ opField w := fun h => h o hop.symm
    have hrow : (∃ o' : Opcode, o'.code = opField w ∧ w &&& o'.mask ≠ o'.pattern) ↔
        aField w &&& aField o.mask ≠ 0#8 ∨ bField w &&& bField o.mask ≠ 0#8 := by
      simp [hop, code_injective.eq_iff, and_mask_eq_pattern_iff, imp_iff_not_or]
    rw [decode_of_opField hop, decodeOperands_eq_none_iff, or_iff_right hknown, hrow, hop]

/-- Settles O4: another row has another opcode, and a legal word has no wrong bit of its own row. -/
theorem legalWordSelectsItsOwnRowOnly : Obligations.LegalWordSelectsItsOwnRowOnly := by
  intro w i h o
  obtain ⟨hw, -⟩ := decode_eq_some_iff.mp h
  have hop : opField w = i.opcode.code := by rw [← hw, encode, opField_packWord]
  rw [Opcode.selects, beq_iff_eq]
  constructor
  · intro hsel
    obtain ⟨ho, -⟩ := and_mask_eq_pattern_iff.mp hsel
    exact code_injective (ho.symm.trans hop)
  · rintro rfl
    by_contra hbit
    have hnone := (illegalWordsAreThoseOfTheOpcodeMap w).mpr (.inr (.inl ⟨_, hop.symm, hbit⟩))
    exact Option.some_ne_none i (h.symm.trans hnone)

/-- Settles O5: the six legal words are those of their instructions; the three illegal ones are each in a clause of
R96, (a), (d) and (c). -/
theorem writtenOutWordsDecode : Obligations.WrittenOutWordsDecode := by
  have hillegal := illegalWordsAreThoseOfTheOpcodeMap
  refine ⟨?_, ?_, ?_, ?_, ?_, ?_,
    (hillegal _).mpr (.inl (opcode_eq_none_iff.mp rfl)),
    (hillegal _).mpr (.inr (.inr (.inr ⟨rfl, rfl⟩))),
    (hillegal _).mpr (.inr (.inr (.inl ⟨.inl rfl, .inl rfl⟩)))⟩
  all_goals exact decode_eq_some_iff.mpr ⟨rfl, rfl⟩

/-! ### The pseudo-instructions (R99) -/

theorem exec_wrline (l : Line) (v : Level) (s : State) :
    exec (.wrline l v) s = .next { completed (.wrline l v) .ok s.result s with
      out := setCell s.out l v, trace := s.trace ++ [.drv l v] } := by
  rw [exec_eq]
  exact operate_ok _ _ _

theorem exec_delayms (n : BitVec 16) (s : State) :
    exec (.delayms n) s = .next { completed (.delayms n) .ok s.result s with
      trace := s.trace ++ [.waitMs n.toNat] } := by
  rw [exec_eq]
  exact operate_ok _ _ _

theorem exec_delayus (n : BitVec 16) (s : State) :
    exec (.delayus n) s = .next { completed (.delayus n) .ok s.result s with
      trace := s.trace ++ [.waitUs n.toNat] } := by
  rw [exec_eq]
  exact operate_ok _ _ _

/-- Settles O23: the fuse operations by the mode's row; `NOP` is `DELAYUS` with count 0; `WRPULSE` is three
operations that complete one after another. -/
theorem pseudoInstructionsExpandAsStated : Obligations.PseudoInstructionsExpandAsStated := by
  refine ⟨?_, fun f v => ⟨rfl, rfl⟩, fun s => ⟨rfl, exec_delayus 0#16 s, ?_⟩⟩
  · rintro f v m (rfl | rfl) <;> exact ⟨rfl, rfl⟩
  · simp only [pseudoWrpulse, runInstrs, exec_wrline, exec_delayms]
    exact ⟨_, rfl, by simp, setCell_setCell s.out .wr .low .high, rfl⟩

end Sys2Proof
end

section
/-! PROOFS, `40_line_primitives.md`: the nine line, bus and timing operations, and every operation spelled as a
sequence of them. -/

namespace Sys2Proof

open Sys2Proof.Machine Sys2Proof.Safety

/-! ### A sample, by what answers it (R29, R31, R34) -/

theorem smpLine_input {l : Line} {s : State} {v : Level} {rest : List Level} (hd : getCell s.dir l = .input)
    (hp : s.pinIn = v :: rest) : smpLine l s = { s with pinIn := rest, trace := s.trace ++ [.smp l v] } := by
  rw [smpLine, sampledLevel_input hd hp, useLevel_input hd hp]

theorem smpLine_free {l : Line} {s : State} (h : getCell s.dir l = .output ∨ s.pinIn = []) : smpLine l s =
    { s with draws := s.draws + 1, trace := s.trace ++ [.smp l (Config.freeLevel s.draws)] } := by
  rw [smpLine, sampledLevel_free h, useLevel_free h]

theorem busSample_input {s : State} {b : Byte} {rest : List Byte} (hd : s.busDir = .input)
    (hb : s.busIn = b :: rest) : busSample s = { s with busIn := rest, trace := s.trace ++ [.bsmp b] } := by
  rw [busSample, sampledByte_input hd hb, useByte_input hd hb]

theorem busSample_free {s : State} (h : s.busDir = .output ∨ s.busIn = []) : busSample s =
    { s with draws := s.draws + 1, trace := s.trace ++ [.bsmp (Config.freeByte s.draws)] } := by
  rw [busSample, sampledByte_free h, useByte_free h]

/-! ### What each line, bus and timing operation leaves (R110 to R118) -/

theorem exec_setdir (l : Line) (d : Direction) (s : State) :
    exec (.setdir l d) s = .next { completed (.setdir l d) .ok s.result s with
      dir := setCell s.dir l d, trace := s.trace ++ [.dir l d] } := by
  rw [exec_eq]
  exact operate_ok _ _ _

theorem exec_strobe (l : Line) (h : Byte) (s : State) :
    exec (.strobe l h) s = .next { completed (.strobe l h) .ok s.result s with
      out := setCell s.out l .low
      trace := s.trace ++ [.drv l .high, .waitMs h.toNat, .drv l .low] } := by
  rw [exec_eq]
  refine (operate_ok _ _ _).trans ?_
  simp [listOf, strobeList, conduct, run, performAction, drvLine, waitMs, advance, complete, completed,
    setCell_setCell]

theorem exec_setbusdir (d : Direction) (s : State) :
    exec (.setbusdir d) s = .next { completed (.setbusdir d) .ok s.result s with
      busDir := d, trace := s.trace ++ [.bdir d] } := by
  rw [exec_eq]
  exact operate_ok _ _ _

theorem exec_wrbus (b : Byte) (s : State) :
    exec (.wrbus b) s = .next { completed (.wrbus b) .ok s.result s with
      busOut := b, trace := s.trace ++ [.bdrv b] } := by
  rw [exec_eq]
  exact operate_ok _ _ _

/-- `RDLINE`, whatever gives the sample its level. -/
theorem exec_rdline (l : Line) (s : State) : exec (.rdline l) s =
    .next (complete .ok { smpLine l (accept (encode (.rdline l)) s) with result := (sampledLevel l s).code }) := rfl

/-- `RDBUS`, whatever gives the sample its byte. -/
theorem exec_rdbus (s : State) : exec .rdbus s =
    .next (complete .ok { busSample (accept (encode .rdbus) s) with result := sampledByte s }) := rfl

/-- Settles O14: the step is `exec_setdir`; the pin shows the latch exactly when the new direction is Output. -/
theorem setdirWritesTheDirectionOnly : Obligations.SetdirWritesTheDirectionOnly := by
  refine fun l d s => ⟨rfl, exec_setdir l d s, ?_⟩
  cases d <;> simp [pinOut]

/-- Settles O15: the step is `exec_wrline`; whether the pin shows the new latch is the direction's matter. -/
theorem wrlineWritesTheLatchOnly : Obligations.WrlineWritesTheLatchOnly := by
  refine fun l v s => ⟨rfl, exec_wrline l v s, ?_⟩
  cases hd : getCell s.dir l <;> simp [pinOut, hd]

/-- Settles O16: `exec_rdline`, with what a sample gives and takes by the direction and the script. -/
theorem rdlineReturnsTheSampledLevel : Obligations.RdlineReturnsTheSampledLevel := by
  refine fun l s => ⟨rfl, fun v rest hd hp => ?_, fun hfree => ?_⟩
  · rw [exec_rdline, sampledLevel_input hd hp, smpLine_input (s := accept _ s) hd hp, accept_encode]
    rfl
  · rw [exec_rdline, sampledLevel_free hfree, smpLine_free (s := accept _ s) hfree, accept_encode]
    rfl

/-- Settles O17: the three primitives of `exec_strobe`. -/
theorem strobePulsesTheLine : Obligations.StrobePulsesTheLine := fun l h s => ⟨rfl, exec_strobe l h s⟩

/-- The 16-bit count of two bytes, high byte first (R64). -/
theorem toNat_append_bytes (a b : Byte) : (a ++ b).toNat = 256 * a.toNat + b.toNat := by
  rw [BitVec.toNat_append, ← Nat.shiftLeft_add_eq_or_of_lt b.isLt, Nat.shiftLeft_eq, Nat.mul_comm]

/-- Settles O18: both rows read their two fields as one count, and the operation waits it. -/
theorem delaysWaitTheirCount : Obligations.DelaysWaitTheirCount := by
  intro a b s
  refine ⟨?_, ?_, ?_, ?_⟩
  · simpa [decodeOperands] using decode_of_opField (o := .delayms) (opField_packWord 0x14#8 a b)
  · simpa [decodeOperands] using decode_of_opField (o := .delayus) (opField_packWord 0x15#8 a b)
  · rw [exec_delayms, toNat_append_bytes]
  · rw [exec_delayus, toNat_append_bytes]

/-- Settles O19: the step is `exec_setbusdir`; the bus shows its latch exactly when the new direction is Output. -/
theorem setbusdirWritesTheBusDirectionOnly : Obligations.SetbusdirWritesTheBusDirectionOnly := by
  refine fun d s => ⟨rfl, exec_setbusdir d s, ?_⟩
  cases d <;> simp [busPins]

/-- Settles O20: the step is `exec_wrbus`; whether the bus shows the new latch is the direction's matter. -/
theorem wrbusWritesTheBusLatchOnly : Obligations.WrbusWritesTheBusLatchOnly := by
  refine fun b s => ⟨rfl, exec_wrbus b s, ?_⟩
  cases hd : s.busDir <;> simp [busPins]

/-- Settles O21: `exec_rdbus`, with what a sample gives and takes by the direction and the script. -/
theorem rdbusReturnsTheSampledByte : Obligations.RdbusReturnsTheSampledByte := by
  refine fun s => ⟨rfl, fun b rest hd hb => ?_, fun hfree => ?_⟩
  · rw [exec_rdbus, sampledByte_input hd hb, busSample_input (s := accept _ s) hd hb, accept_encode]
    rfl
  · rw [exec_rdbus, sampledByte_free hfree, busSample_free (s := accept _ s) hfree, accept_encode]
    rfl

/-! ### The events of a trace, one primitive each (R119)

An operation and its spelling differ in registers that no event reads, so a trace is followed on the part of the
state that primitives do read and write. -/

/-- What an event can read or write: the lines, the bus, and the environment's coming answers. -/
structure PinSide where
  dir    : PerLine Direction
  out    : PerLine Level
  busDir : Direction
  busOut : Byte
  pinIn  : List Level
  busIn  : List Byte
  draws  : Nat

/-- The pin side of a state. -/
def pinSide (s : State) : PinSide := ⟨s.dir, s.out, s.busDir, s.busOut, s.pinIn, s.busIn, s.draws⟩

/-- The primitives that append one event, each with its event; a busy-wait is samples and waits (R186). -/
inductive Primitive : Event → State → State → Prop
  | dir (l : Line) (d : Direction) (s : State) : Primitive (.dir l d) s (dirLine l d s)
  | drv (l : Line) (v : Level) (s : State) : Primitive (.drv l v) s (drvLine l v s)
  | smp (l : Line) (s : State) : Primitive (.smp l (sampledLevel l s)) s (smpLine l s)
  | bdir (d : Direction) (s : State) : Primitive (.bdir d) s (busDirection d s)
  | bdrv (b : Byte) (s : State) : Primitive (.bdrv b) s (busDrive b s)
  | bsmp (s : State) : Primitive (.bsmp (sampledByte s)) s (busSample s)
  | waitUs (n : Nat) (s : State) : Primitive (.waitUs n) s (waitUs n s)
  | waitMs (n : Nat) (s : State) : Primitive (.waitMs n) s (waitMs n s)

/-- The primitives of the events, in order, lead from one pin side to another. -/
inductive Leads : List Event → PinSide → PinSide → Prop
  | nil (x : PinSide) : Leads [] x x
  | cons {e : Event} {es : List Event} {s t : State} {y : PinSide} (he : Primitive e s t)
      (hes : Leads es (pinSide t) y) : Leads (e :: es) (pinSide s) y

theorem Primitive.trace {e : Event} {s t : State} (h : Primitive e s t) : t.trace = s.trace ++ [e] := by
  cases h <;> rfl

theorem Leads.append {es es' : List Event} {x y z : PinSide} (h : Leads es x y) (h' : Leads es' y z) :
    Leads (es ++ es') x z := by
  induction h with
  | nil => exact h'
  | cons he _ ih => exact .cons he (ih h')

/-! ### Each event's host operation performs its primitive -/

/-- A line sample reads and uses up the pin side only. -/
theorem smpLine_congr {s u : State} (h : pinSide u = pinSide s) (l : Line) :
    sampledLevel l u = sampledLevel l s ∧ pinSide (smpLine l u) = pinSide (smpLine l s) := by
  simp only [pinSide, PinSide.mk.injEq] at h
  simp only [pinSide, smpLine, sampledLevel, useLevel, h]
  split <;> simp [*]

theorem busSample_congr {s u : State} (h : pinSide u = pinSide s) :
    sampledByte u = sampledByte s ∧ pinSide (busSample u) = pinSide (busSample s) := by
  simp only [pinSide, PinSide.mk.injEq] at h
  simp only [pinSide, busSample, sampledByte, useByte, h]
  split <;> simp [*]

/-- From a state with the same pin side, the host operation that spells an event appends that event and leaves the
pin side that the event's primitive leaves. -/
theorem exec_of_hostSpelling {e : Event} {i : Instr} {s t u : State} (he : Primitive e s t)
    (hi : hostSpelling? e = some i) (hu : pinSide u = pinSide s) :
    ∃ v, exec i u = .next v ∧ v.trace = u.trace ++ [e] ∧ pinSide v = pinSide t := by
  cases he with
  | smp l =>
    cases hi
    obtain ⟨hval, hside⟩ := smpLine_congr (u := accept (encode (.rdline l)) u) hu l
    exact ⟨_, exec_rdline l u, by rw [← hval]; rfl, hside⟩
  | bsmp =>
    cases hi
    obtain ⟨hval, hside⟩ := busSample_congr (u := accept (encode .rdbus) u) hu
    exact ⟨_, exec_rdbus u, by rw [← hval]; rfl, hside⟩
  | waitUs n =>
    obtain ⟨hn, ⟨⟩⟩ := Option.ite_none_right_eq_some.mp hi
    exact ⟨_, exec_delayus _ u, by simp [Nat.mod_eq_of_lt hn], hu⟩
  | waitMs n =>
    obtain ⟨hn, ⟨⟩⟩ := Option.ite_none_right_eq_some.mp hi
    exact ⟨_, exec_delayms _ u, by simp [Nat.mod_eq_of_lt hn], hu⟩
  | dir l d => cases hi; exact ⟨_, exec_setdir l d u, rfl, by simp_all [pinSide, completed]⟩
  | drv l v => cases hi; exact ⟨_, exec_wrline l v u, rfl, by simp_all [pinSide, completed]⟩
  | bdir d => cases hi; exact ⟨_, exec_setbusdir d u, rfl, by simp_all [pinSide, completed]⟩
  | bdrv b => cases hi; exact ⟨_, exec_wrbus b u, rfl, by simp_all [pinSide, completed]⟩

/-- An event that no host operation spells is a wait, and moves nothing. -/
theorem pinSide_of_hostSpelling_none {e : Event} {s t : State} (he : Primitive e s t)
    (hi : hostSpelling? e = none) : pinSide t = pinSide s := by
  cases he with
  | waitUs | waitMs => rfl
  | _ => cases hi

/-- The spelling of a trace, run from any state with the pin side the trace starts from. -/
theorem runInstrs_of_leads {es : List Event} {x y : PinSide} (h : Leads es x y) (u : State) (hu : pinSide u = x) :
    ∃ v, runInstrs (es.filterMap hostSpelling?) u = .next v ∧
      v.trace = u.trace ++ es.filter (fun e => (hostSpelling? e).isSome) ∧ pinSide v = y := by
  induction h generalizing u with
  | nil => exact ⟨u, rfl, by simp, hu⟩
  | @cons e es s t y he _ ih =>
    cases hi : hostSpelling? e with
    | none => simpa [hi] using ih u (hu.trans (pinSide_of_hostSpelling_none he hi).symm)
    | some i =>
      obtain ⟨w, hw, htrace, hside⟩ := exec_of_hostSpelling he hi hu
      obtain ⟨v, hv, hvtrace, hvside⟩ := ih w hside
      exact ⟨v, by simpa [hi, runInstrs, hw] using hv, by simp [hi, hvtrace, htrace], hvside⟩

/-! ### What an operation performs, as a trace -/

/-- From `s` to `t` exactly the events `es` are performed; a configuration `p` whose waits fit leaves none of them
without a host operation. -/
structure Performed (p : Params) (es : List Event) (s t : State) : Prop where
  trace : t.trace = s.trace ++ es
  leads : Leads es (pinSide s) (pinSide t)
  spelled : WaitsFit p → ∀ e ∈ es, (hostSpelling? e).isSome = true

theorem Performed.nil (p : Params) {s t : State} (ht : t.trace = s.trace) (hs : pinSide t = pinSide s) :
    Performed p [] s t :=
  ⟨by simp [ht], hs ▸ .nil _, by simp⟩

theorem Primitive.performed {p : Params} {e : Event} {s t : State} (h : Primitive e s t)
    (hfit : WaitsFit p → (hostSpelling? e).isSome = true) : Performed p [e] s t :=
  ⟨h.trace, .cons h (.nil _), by simpa using hfit⟩

theorem Performed.append {p : Params} {es es' : List Event} {s t u : State} (h : Performed p es s t)
    (h' : Performed p es' t u) : Performed p (es ++ es') s u where
  trace := by rw [h'.trace, h.trace, List.append_assoc]
  leads := h.leads.append h'.leads
  spelled hp e he := (List.mem_append.mp he).elim (h.spelled hp e) (h'.spelled hp e)

/-- A busy-wait performs its samples and waits; the count between them is no event (R186). -/
theorem pollLoop_performed {p : Params} (l : Line) (n : Nat) (s : State) (hcfg : s.cfg = p) :
    ∃ es, Performed p es s (pollLoop l n s).1 := by
  have hsmp (u : State) : Performed p [_] u (smpLine l u) := (Primitive.smp l u).performed fun _ => rfl
  have hlow (u : State) : Performed p ([_] ++ []) u (countLow (smpLine l u)) := (hsmp u).append (.nil p rfl rfl)
  induction n generalizing s with
  | zero =>
    unfold pollLoop
    split
    · exact ⟨_, hsmp s⟩
    · exact ⟨_, hlow s⟩
  | succ n ih =>
    unfold pollLoop
    split
    · exact ⟨_, hsmp s⟩
    · have hwait : Performed p [_] (countLow (smpLine l s)) (waitUs s.cfg.tPollUs _) :=
        (Primitive.waitUs _ _).performed fun hfit => by simp_all [hostSpelling?]
      obtain ⟨es, hes⟩ := ih (waitUs s.cfg.tPollUs (countLow (smpLine l s))) (by simpa using hcfg)
      exact ⟨_, (hlow s).append (hwait.append hes)⟩

theorem poll_performed (l : Line) (s : State) : ∃ es, Performed s.cfg es s (poll l s).1 := by
  obtain ⟨es, hes⟩ := pollLoop_performed l s.cfg.pollLimitPred { s with pcnt := 0 } rfl
  exact ⟨es, { hes with }⟩

/-- An entry whose own wait, if it is one, a host operation can carry. A busy-wait's wait is the configuration's. -/
def waitFits : Action → Bool
  | .waitUs n => decide (n < 65536)
  | .waitMs n => decide (n < 65536)
  | _ => true

theorem performAction_performed {p : Params} (a : Action) (q : Run) (hcfg : q.st.cfg = p)
    (hfit : WaitsFit p → waitFits a = true) : ∃ es, Performed p es q.st (performAction q a).st := by
  subst hcfg
  have hstep {e : Event} {t : State} (he : Primitive e q.st t)
      (h : WaitsFit q.st.cfg → (hostSpelling? e).isSome = true) : ∃ es, Performed q.st.cfg es q.st (advance t) :=
    ⟨[e] ++ [], (he.performed h).append (.nil _ rfl rfl)⟩
  cases a with
  | dir l d => exact hstep (.dir l d _) fun _ => rfl
  | drv l v => exact hstep (.drv l v _) fun _ => rfl
  | smp l => exact hstep (.smp l _) fun _ => rfl
  | bdir d => exact hstep (.bdir d _) fun _ => rfl
  | bdrv b => exact hstep (.bdrv b _) fun _ => rfl
  | bsmp => exact hstep (.bsmp _) fun _ => rfl
  | waitUs n => exact hstep (.waitUs n _) fun hp => by simpa [hostSpelling?, waitFits] using hfit hp
  | waitMs n => exact hstep (.waitMs n _) fun hp => by simpa [hostSpelling?, waitFits] using hfit hp
  | poll l =>
    obtain ⟨es, h⟩ := poll_performed l q.st
    simp only [performAction]
    split
    · exact ⟨es ++ [], h.append (.nil _ rfl rfl)⟩
    · exact ⟨es, h⟩
  | _ => exact ⟨[], .nil _ rfl rfl⟩

theorem run_cfg (acts : List Action) (s : State) : (run acts s).st.cfg = s.cfg :=
  runList_field (·.cfg) acts _ fun a _ q => performAction_cfg q a

/-- A list performs the events of its entries, up to the timeout if one is raised. -/
theorem run_performed (acts : List Action) (s : State) (hfit : WaitsFit s.cfg → acts.all waitFits = true) :
    ∃ es, Performed s.cfg es s (run acts s).st := by
  refine (runList_keeps (fun u => u.cfg = s.cfg ∧ ∃ es, Performed s.cfg es s u) acts _ ?_
    ⟨rfl, [], .nil _ rfl rfl⟩).2
  rintro a ha q ⟨hq, es, hes⟩
  obtain ⟨es', hes'⟩ := performAction_performed a q hq fun hp => List.all_eq_true.mp (hfit hp) a ha
  exact ⟨by rw [performAction_cfg, hq], es ++ es', hes.append hes'⟩

/-! ### The waits of the lists -/

theorem bitTimeList_waitFits {p : Params} (hp : WaitsFit p) (a b : Level) :
    (bitTimeList p a b).all waitFits = true := by
  simp_all [bitTimeList, drvSerial, drvRole, onRole, rho, pulseList, waitFits]

theorem frameList_waitFits {p : Params} (hp : WaitsFit p) (d i : Byte) : (frameList p d i).all waitFits = true := by
  simp [frameList_eq, payloadBit, bitTimeList_waitFits hp, sampleInto, onRole, rho, waitFits]

theorem loadList_waitFits {p : Params} (hp : WaitsFit p) (m : Mode) (xa1 xa0 : Level) (b : Byte) :
    (loadList m p xa1 xa0 b).all waitFits = true := by
  cases m <;> simp_all [loadList, restBs2, strobeList, busHoldList, waitFits]

theorem drvRole_waitFits (m : Mode) (r : Role) (v : Level) : (drvRole m r v).all waitFits = true := by
  unfold drvRole onRole
  split <;> rfl

theorem ppWriteList_waitFits {p : Params} (hp : WaitsFit p) (m : Mode) (f : FuseSel) (v : Byte) :
    (ppWriteList m p f v).all waitFits = true := by
  have hburn : (burnList p).all waitFits = true := by simp_all [burnList, waitFits]
  simp [ppWriteList, sendCommandList, loadFuseDataList, selectList, deselectList, loadList_waitFits hp, hburn,
    drvRole_waitFits, waitFits]

theorem ppReadList_waitFits {p : Params} (hp : WaitsFit p) (m : Mode) (f : FuseSel) :
    (ppReadList m p f).all waitFits = true := by
  have hread : (readBusList p).all waitFits = true := by simp_all [readBusList, waitFits]
  simp [ppReadList, sendCommandList, selectList, loadList_waitFits hp, hread, drvRole_waitFits, waitFits]

theorem exitList_waitFits (p : Params) (dir : PerLine Direction) : (exitList p dir).all waitFits = true :=
  all_exitList waitFits (fun _ _ => rfl) (fun _ => rfl) rfl p dir

/-- Every wait an operation lists is a configured one, a fixed one of R5, or the 8-bit or 16-bit operand. -/
theorem listOf_waitFits (i : Instr) (s : State) (hp : WaitsFit s.cfg) : (listOf i s).all waitFits = true := by
  cases i with
  | enter => simp only [listOf]; cases s.mode <;> rfl
  | exit => exact exitList_waitFits s.cfg s.dir
  | strobe l h => simpa [listOf, strobeList, waitFits] using h.isLt.trans (by decide)
  | delayms n => simpa [listOf, waitFits] using n.isLt
  | delayus n => simpa [listOf, waitFits] using n.isLt
  | ppSendcmd b => exact loadList_waitFits hp _ _ _ b
  | ppLoaddata b => exact loadList_waitFits hp _ _ _ b
  | ppWrfuse sel v => exact all_withFuse _ _ sel _ fun f => ppWriteList_waitFits hp _ f v
  | ppRdfuse sel => exact all_withFuse _ _ sel _ fun f => ppReadList_waitFits hp _ f
  | spXfer d b => simp [listOf, frameList_waitFits hp, waitFits]
  | spWrfuse sel v =>
    exact all_withFuse _ _ sel _ fun f => by
      simp [spWriteList, pairFrame, frameList_waitFits hp, onRole, rho, waitFits]
  | spRdfuse sel =>
    exact all_withFuse _ _ sel _ fun f => by simp [spReadList, pairFrame, frameList_waitFits hp, waitFits]
  | _ => rfl

/-! ### Every operation and its spelling (R119) -/

theorem abort_performed (s : State) : ∃ es, Performed s.cfg es s (abort s) := by
  obtain ⟨es, hes⟩ := run_performed (exitList s.cfg s.dir) { s with entered := false, upc := 0#9 }
    fun _ => exitList_waitFits _ _
  exact ⟨es, { hes with }⟩

/-- A refusal performs nothing; a list that runs to its end performs its events; a timeout adds the abort's. -/
theorem exec_performed {i : Instr} {s t : State} (h : exec i s = .next t) : ∃ es, Performed s.cfg es s t := by
  obtain ⟨e, -, rfl⟩ | ⟨-, r, hr, hend⟩ := exec_cases h
  · exact ⟨[], .nil _ rfl rfl⟩
  rw [← accept_encode] at hr
  subst hr
  obtain ⟨es, hes⟩ := run_performed (listOf i s) (accept (encode i) s) (listOf_waitFits i s)
  obtain ⟨-, rfl⟩ | ⟨-, rfl⟩ := hend
  · exact ⟨es, { hes with }⟩
  · obtain ⟨es', hes'⟩ := abort_performed (run (listOf i s) (accept (encode i) s)).st
    rw [run_cfg] at hes'
    exact ⟨es ++ es', { hes.append hes' with }⟩

/-- The events of an operation are the ones it performed. -/
theorem exec_eventsOf_performed {i : Instr} {s t : State} (h : exec i s = .next t) :
    Performed s.cfg (eventsOf s t) s t := by
  obtain ⟨es, hes⟩ := exec_performed h
  have heq : eventsOf s t = es := by simp [eventsOf, hes.trace]
  exact heq ▸ hes

theorem linesAndBus_of_pinSide {u t : State} (h : pinSide u = pinSide t) :
    u.dir = t.dir ∧ u.out = t.out ∧ u.busDir = t.busDir ∧ u.busOut = t.busOut :=
  ⟨congrArg PinSide.dir h, congrArg PinSide.out h, congrArg PinSide.busDir h, congrArg PinSide.busOut h⟩

theorem mapM_eq_filterMap {α β : Type*} {f : α → Option β} {xs : List α} (h : ∀ x ∈ xs, (f x).isSome = true) :
    xs.mapM f = some (xs.filterMap f) := by
  induction xs with
  | nil => rfl
  | cons x xs ih =>
    obtain ⟨y, hy⟩ := Option.isSome_iff_exists.mp (h x (by simp))
    simp [hy, ih fun z hz => h z (by simp [hz])]

/-- Settles O22: an operation's events are performed one primitive each, and each event's host operation performs its
primitive on the same pin side; where the waits fit, no event is without one. -/
theorem operationEqualsItsHostSpelling : Obligations.OperationEqualsItsHostSpelling := by
  constructor
  · intro i s t hfit h
    have hp := exec_eventsOf_performed h
    have hall := hp.spelled hfit
    obtain ⟨u, hrun, htrace, hside⟩ := runInstrs_of_leads hp.leads s rfl
    rw [List.filter_eq_self.mpr hall, ← hp.trace] at htrace
    exact ⟨_, u, mapM_eq_filterMap hall, hrun, htrace, linesAndBus_of_pinSide hside⟩
  · intro i s t h
    obtain ⟨u, hrun, htrace, hside⟩ := runInstrs_of_leads (exec_eventsOf_performed h).leads s rfl
    exact ⟨u, hrun, htrace, linesAndBus_of_pinSide hside⟩

end Sys2Proof
end

section
/-! PROOFS, `41_session.md`: mode selection, enter and exit, and the line discipline that sessions, aborts and resets
keep. -/

namespace Sys2Proof

open Sys2Proof.Machine Sys2Proof.Safety

/-! ### An instruction, by what its checks say (R181, R183) -/

theorem exec_of_refused {i : Instr} {s : State} {e : ErrCode} (h : firstFailing (checksOf i s) = some e) :
    exec i s = .next (completed i e s.result s) := by
  rw [exec_eq, planned, h]
  exact operate_error i e s

theorem exec_of_accepted {i : Instr} {s : State} (h : firstFailing (checksOf i s) = none) :
    exec i s = .next (conduct (listOf i s) (accept (encode i) s)) := by
  rw [exec_eq, planned, h]
  rfl

/-! ### SETMODE (R130) -/

theorem exec_setmode {m : Mode} {s : State} (hm : m ≠ .unselected) (he : s.entered = false) :
    exec (.setmode m) s = .next { completed (.setmode m) .ok s.result s with mode := m } := by
  rw [exec_of_accepted (by simp [firstFailing_eq_none, checksOf, hm, he]), accept_encode]
  rfl

theorem exec_setmode_locked {m : Mode} {s : State} (hm : m ≠ .unselected) (he : s.entered = true) :
    exec (.setmode m) s = .next (completed (.setmode m) .modeLocked s.result s) :=
  exec_of_refused (by simp [checksOf, modeOperandCheck, modeLockedCheck, hm, he, firstFailing])

theorem modeOperand_eq_none_of_three_le {b : Byte} (h : 3 ≤ b.toNat) : modeOperand? b = none := by
  revert b
  decide

/-- R96 (b), (d): the words of the `SETMODE` row with a bit of field `a` set, or with an operand above 2. -/
theorem decode_setmode_eq_none {a b : Byte} (h : a ≠ 0x00#8 ∨ 3 ≤ b.toNat) :
    decode (packWord 0x01#8 a b) = none := by
  have hrow : decode (packWord 0x01#8 a b) = unused? a ((modeOperand? b).map .setmode) := by
    simpa [decodeOperands] using decode_of_opField (o := .setmode) (opField_packWord 0x01#8 a b)
  rw [hrow, unused_none, Option.map_eq_none_iff]
  exact h.imp_right modeOperand_eq_none_of_three_le

/-- Settles O24: the two outcomes are `exec_setmode` and `exec_setmode_locked`; the illegal words are those of
`decode_setmode_eq_none`. -/
theorem setmodeSelectsTheModeOutsideASession : Obligations.SetmodeSelectsTheModeOutsideASession :=
  fun _ _ hm => ⟨rfl, exec_setmode hm, exec_setmode_locked hm, fun _ _ => decode_setmode_eq_none⟩

/-! ### ENTER (R131, R132) -/

theorem exec_enter_again {s : State} (he : s.entered = true) :
    exec .enter s = .next (completed .enter .alreadyEntered s.result s) :=
  exec_of_refused (by simp [checksOf, alreadyEnteredCheck, he, firstFailing])

theorem exec_enter_unselected {s : State} (he : s.entered = false) (hm : s.mode = .unselected) :
    exec .enter s = .next (completed .enter .modeUnselected s.result s) :=
  exec_of_refused (by simp [checksOf, alreadyEnteredCheck, modeUnselectedCheck, he, hm, firstFailing])

/-- `ENTER` outside a session, with a mode: the primitives of the mode, then `ENTERED <- 1`. -/
theorem exec_enter {s : State} (he : s.entered = false) (hm : s.mode ≠ .unselected) : exec .enter s =
    .next (conduct (enterList s.mode s.cfg ++ [.setEntered true]) (accept (encode .enter) s)) :=
  exec_of_accepted (by simp [firstFailing_eq_none, checksOf, he, hm])

/-- Settles O25: the two refusals, and the 24 primitives performed one after another. -/
theorem enterParallelRunsItsSequence : Obligations.EnterParallelRunsItsSequence := by
  refine ⟨fun s => exec_enter_again, fun s => exec_enter_unselected, fun s he hm => ⟨rfl, ?_⟩⟩
  have hmode : s.mode ≠ .unselected := by rcases hm with hm | hm <;> simp [hm]
  have hlist : enterList s.mode s.cfg = enterParallelList s.cfg := by rcases hm with hm | hm <;> rw [hm] <;> rfl
  rw [exec_enter he hmode, hlist, accept_encode]
  simp [enterParallelList, conduct, run, performAction, advance, dirLine, drvLine, busDirection, waitUs, setCell,
    vccOnLevel, rstOnLevel, tVccUs, tRstUs, complete, completed]

/-- Settles O26: the refusal, and the 21 primitives performed one after another. -/
theorem enterSerialRunsItsSequence : Obligations.EnterSerialRunsItsSequence := by
  refine ⟨fun s he _ => exec_enter_again he, fun s he hm => ?_⟩
  rw [exec_enter he (by simp [hm]), hm, accept_encode]
  simp [enterList, enterSerialList, conduct, run, performAction, advance, dirLine, drvLine, busDirection, waitUs,
    setCell, vccOnLevel, rstOnLevel, tVccUs, tRstUs, tSdoUs, complete, completed]

/-! ### EXIT (R133) -/

theorem exec_exit_outside {s : State} (he : s.entered = false) :
    exec .exit s = .next (completed .exit .notEntered s.result s) :=
  exec_of_refused (by simp [checksOf, notEnteredCheck, he, firstFailing])

theorem exec_exit {s : State} (he : s.entered = true) :
    exec .exit s = .next { completed .exit .ok s.result s with
      entered := false
      busDir := .input
      dir := exitDir s.dir
      out := exitOut s.cfg s.dir s.out
      trace := s.trace ++ exitTrace s.cfg s.dir } := by
  obtain ⟨u, hu⟩ := exitList_run { accept (encode .exit) s with entered := false } 0x00#8
  have hrun : run (listOf .exit s) (accept (encode .exit) s) = _ := hu
  rw [exec_of_accepted (by simp [firstFailing_eq_none, checksOf, he]), conduct_done hrun, accept_encode]
  rfl

/-- The events by which the exit list releases a line: two or none (R133). -/
def releaseTrace (dir : PerLine Direction) (l : Line) : List Event :=
  if getCell dir l = .output then [.drv l .low, .dir l .input] else []

theorem releaseTrace_length_le (dir : PerLine Direction) (l : Line) : (releaseTrace dir l).length ≤ 2 := by
  unfold releaseTrace
  split <;> simp

theorem exitTrace_eq (p : Params) (dir : PerLine Direction) : exitTrace p dir =
    [.drv .rst p.rstOn.flip, .bdir .input] ++ exitLines.flatMap (releaseTrace dir) ++ [.drv .vcc p.vccOn.flip] := by
  simp [exitTrace, exitLines, releaseTrace]

theorem releaseTraces_length_le (dir : PerLine Direction) :
    (exitLines.flatMap (releaseTrace dir)).length ≤ 18 := by
  rw [List.length_flatMap]
  exact List.sum_le_card_nsmul _ 2 (by simp [releaseTrace_length_le])

/-- Settles O27: the two outcomes of `EXIT`; the exit list has three fixed events and at most two for each of its nine
lines. -/
theorem exitReleasesTheTarget : Obligations.ExitReleasesTheTarget := by
  refine ⟨fun s => exec_exit_outside, fun s he => ⟨rfl, exec_exit he, ?_⟩⟩
  have hle := releaseTraces_length_le s.dir
  simp only [exitTrace_eq, List.length_append, List.length_cons, List.length_nil]
  omega

/-! ### What a list leaves of the lines and the bus -/

/-- An entry that drives lines of `ls` only, and changes no direction. -/
def drivesWithin (ls : List Line) : Action → Bool
  | .drv l _ => decide (l ∈ ls)
  | .dir _ _ => false
  | _ => true

/-- The bus direction after an entry. -/
def busDirAfter (d : Direction) : Action → Direction
  | .bdir d' => d'
  | _ => d

/-- The latch of line `l` after an entry. -/
def latchAfter (l : Line) (v : Level) : Action → Level
  | .drv m v' => if l = m then v' else v
  | _ => v

/-- A list that drives lines of `ls` only, parks the bus, and leaves OE High where it was High (R146, R165). -/
def keepsDiscipline (ls : List Line) (p : List Action) : Bool :=
  p.all (drivesWithin ls) && decide (p.foldl busDirAfter .input = .input) &&
    decide (p.foldl (latchAfter .oe) .high = .high)

theorem keepsDiscipline_iff {ls : List Line} {p : List Action} : keepsDiscipline ls p = true ↔
    p.all (drivesWithin ls) = true ∧ p.foldl busDirAfter .input = .input ∧
      p.foldl (latchAfter .oe) .high = .high := by
  simp only [keepsDiscipline, Bool.and_eq_true, decide_eq_true_eq, and_assoc]

theorem keepsDiscipline_append {ls : List Line} {p q : List Action} (hp : keepsDiscipline ls p = true)
    (hq : keepsDiscipline ls q = true) : keepsDiscipline ls (p ++ q) = true := by
  rw [keepsDiscipline_iff] at hp hq ⊢
  obtain ⟨hpd, hpb, hpo⟩ := hp
  rw [List.all_append, List.foldl_append, List.foldl_append, hpd, hpb, hpo]
  simpa using hq

theorem sparesLine_of_drivesWithin {ls : List Line} {l : Line} (hl : l ∉ ls) {a : Action}
    (h : drivesWithin ls a = true) : sparesLine l a = true := by
  cases a with
  | drv m v =>
    have hne : m ≠ l := by
      rintro rfl
      exact hl (of_decide_eq_true h)
    exact decide_eq_true hne
  | dir m d => cases h
  | _ => rfl

theorem performAction_busDir_eq (q : Run) (a : Action) :
    (performAction q a).st.busDir = busDirAfter q.st.busDir a := by
  cases a with
  | bdir d => rfl
  | _ => exact performAction_busDir q _ (by simp)

theorem performAction_latch (l : Line) (q : Run) (a : Action) :
    getCell (performAction q a).st.out l = latchAfter l (getCell q.st.out l) a := by
  cases a with
  | drv m v => exact getCell_setCell _ _ _ _
  | _ => rw [performAction_out q _ (by simp)]; rfl

/-- What each entry makes of a register, a list that runs to its end makes of it, entry by entry. -/
theorem runList_foldl {α : Type} (f : State → α) (g : α → Action → α)
    (hg : ∀ q a, f (performAction q a).st = g (f q.st) a) (p : List Action) (s : State) (v : Byte)
    (h : (runList p ⟨s, v, false⟩).timedOut = false) : f (runList p ⟨s, v, false⟩).st = p.foldl g (f s) := by
  induction p generalizing s v with
  | nil => rfl
  | cons a p ih =>
    rw [runList_cons, stepRun_running] at h ⊢
    rw [List.foldl_cons, ← hg ⟨s, v, false⟩ a]
    generalize performAction ⟨s, v, false⟩ a = r at h ⊢
    rcases r with ⟨t, w, _ | _⟩
    · exact ih t w h
    · rw [runList_timedOut] at h
      cases h

/-! ### The lists of the operations inside a session (R146, R165) -/

/-- The signal lines a session of mode `m` holds as Outputs (R131, R132). -/
def heldLines (m : Mode) : List Line := if m = .hvsp then serialOutputs else parallelOutputs

theorem loadList_keepsDiscipline (m : Mode) (p : Params) (xa1 xa0 : Level) (b : Byte) :
    keepsDiscipline parallelOutputs (loadList m p xa1 xa0 b) = true := by
  cases m <;> rfl

theorem ppWriteList_keepsDiscipline (m : Mode) (p : Params) (f : FuseSel) (v : Byte) :
    keepsDiscipline parallelOutputs (ppWriteList m p f v) = true := by
  cases m <;> rfl

theorem ppReadList_keepsDiscipline (m : Mode) (p : Params) (f : FuseSel) :
    keepsDiscipline parallelOutputs (ppReadList m p f) = true := by
  cases m <;> rfl

theorem frameList_keepsDiscipline (p : Params) (d i : Byte) : keepsDiscipline serialOutputs (frameList p d i) = true :=
  rfl

theorem spWriteList_keepsDiscipline (p : Params) (f : FuseSel) (v : Byte) :
    keepsDiscipline serialOutputs (spWriteList p f v) = true := by
  have hframe := frameList_keepsDiscipline p
  have hpoll : keepsDiscipline serialOutputs (onRole .hvsp .sdo fun l => .poll l) = true := rfl
  exact keepsDiscipline_append (keepsDiscipline_append (keepsDiscipline_append (keepsDiscipline_append
    (hframe _ _) (hframe _ _)) (hframe _ _)) (hframe _ _)) hpoll

theorem spReadList_keepsDiscipline (p : Params) (f : FuseSel) :
    keepsDiscipline serialOutputs (spReadList p f) = true := by
  have hframe := frameList_keepsDiscipline p
  exact keepsDiscipline_append (keepsDiscipline_append (keepsDiscipline_append
    (hframe _ _) (hframe _ _)) (hframe _ _)) rfl

theorem withFuse_keepsDiscipline {ls : List Line} {f : FuseSel → List Action}
    (h : ∀ x, keepsDiscipline ls (f x) = true) (e : Bool) (sel : BitVec 2) :
    keepsDiscipline ls (withFuse e sel f) = true := by
  unfold withFuse
  split
  · exact h _
  · rfl

@[simp] theorem parallelCheck_eq_none {s : State} : parallelCheck s = none ↔ s.mode ≠ .hvsp := by
  simp [parallelCheck]

@[simp] theorem serialCheck_eq_none {s : State} : serialCheck s = none ↔ s.mode = .hvsp := by
  simp [serialCheck]

theorem hvpp_keepsDiscipline {i : Instr} {s : State} (hi : isHvpp i = true)
    (hc : firstFailing (checksOf i s) = none) :
    s.entered = true ∧ keepsDiscipline (heldLines s.mode) (listOf i s) = true := by
  have hpass : s.entered = true ∧ s.mode ≠ .hvsp := by
    cases i <;> simp_all [isHvpp, firstFailing_eq_none, checksOf]
  obtain ⟨he, hm⟩ := hpass
  rw [heldLines, if_neg hm]
  refine ⟨he, ?_⟩
  cases i with
  | ppSendcmd b => exact loadList_keepsDiscipline _ _ _ _ _
  | ppLoaddata b => exact loadList_keepsDiscipline _ _ _ _ _
  | ppWrfuse sel v => exact withFuse_keepsDiscipline (fun f => ppWriteList_keepsDiscipline _ _ f v) _ sel
  | ppRdfuse sel => exact withFuse_keepsDiscipline (ppReadList_keepsDiscipline _ _) _ sel
  | _ => cases hi

theorem hvsp_keepsDiscipline {i : Instr} {s : State} (hi : isHvsp i = true)
    (hc : firstFailing (checksOf i s) = none) :
    s.entered = true ∧ keepsDiscipline (heldLines s.mode) (listOf i s) = true := by
  have hpass : s.entered = true ∧ s.mode = .hvsp := by
    cases i <;> simp_all [isHvsp, firstFailing_eq_none, checksOf]
  obtain ⟨he, hm⟩ := hpass
  rw [heldLines, if_pos hm]
  refine ⟨he, ?_⟩
  cases i with
  | spXfer d b => exact keepsDiscipline_append (frameList_keepsDiscipline _ d b) rfl
  | spWrfuse sel v => exact withFuse_keepsDiscipline (fun f => spWriteList_keepsDiscipline _ f v) _ sel
  | spRdfuse sel => exact withFuse_keepsDiscipline (spReadList_keepsDiscipline _) _ sel
  | _ => cases hi

/-- The three operations of 41_session.md. -/
def isSessionOperation : Instr → Bool
  | .setmode _ => true
  | .enter => true
  | .exit => true
  | _ => false

theorem held_of_lineDiscipline {s : State} (hs : LineDiscipline s) (he : s.entered = true) :
    ∀ l ∈ heldLines s.mode, getCell s.dir l = .output := by
  obtain ⟨-, -, -, -, hsession⟩ := hs
  obtain ⟨-, hheld⟩ := hsession he
  unfold heldLines
  split <;> simp_all

/-- Inside the discipline, an operation that is neither a session operation nor one that moves lines drives Output
lines only (R222). -/
theorem exists_drivenLines {i : Instr} {s : State} (hs : LineDiscipline s) (hi : movesLines i = false)
    (hsess : isSessionOperation i = false) (hc : firstFailing (checksOf i s) = none) :
    ∃ ls, (∀ l ∈ ls, getCell s.dir l = .output) ∧ keepsDiscipline ls (listOf i s) = true := by
  by_cases hprot : isHvpp i = true ∨ isHvsp i = true
  · obtain ⟨he, hk⟩ := hprot.elim (hvpp_keepsDiscipline · hc) (hvsp_keepsDiscipline · hc)
    exact ⟨_, held_of_lineDiscipline hs he, hk⟩
  · refine ⟨[], by simp, ?_⟩
    cases i with
    | rdline | delayms | delayus | rdbus => rfl
    | _ => simp_all [movesLines, isSessionOperation, isHvpp, isHvsp]

/-! ### What such a list keeps, run to its end or not -/

section

variable {ls : List Line} {p : List Action} {s : State} (hp : keepsDiscipline ls p = true)
  (hls : ∀ l ∈ ls, getCell s.dir l = .output)

include hp hls

theorem all_sparesLine_of_input {l : Line} (hl : getCell s.dir l = .input) : p.all (sparesLine l) = true := by
  have hmem : l ∉ ls := fun h => by simp [hls l h] at hl
  obtain ⟨hdrives, -⟩ := keepsDiscipline_iff.mp hp
  rw [List.all_eq_true] at hdrives ⊢
  exact fun a ha => sparesLine_of_drivesWithin hmem (hdrives a ha)

theorem run_out_of_input {l : Line} (hl : getCell s.dir l = .input) :
    getCell (run p s).st.out l = getCell s.out l :=
  run_out_of_spares (all_sparesLine_of_input hp hls hl) s

theorem run_keeps_exitProviso (hs : ExitProviso s) : (run p s).st.dir = s.dir ∧ ExitProviso (run p s).st := by
  obtain ⟨hvcc, hrst, hstart, hlow, hlines⟩ := hs
  have hdir := run_dir_of_spares (all_sparesLine_of_input hp hls (l := .start) hstart) s
  have hout (l : Line) (hl : getCell s.dir l = .input) := run_out_of_input hp hls hl
  unfold ExitProviso
  rw [hdir]
  exact ⟨rfl, hvcc, hrst, hstart, (hout .start hstart).trans hlow,
    fun l hmem hl => (hout l hl).trans (hlines l hmem hl)⟩

theorem run_keeps_lineDiscipline (hs : LineDiscipline s) (hend : (run p s).timedOut = false)
    (hmode : (run p s).st.mode = s.mode) (hentered : (run p s).st.entered = s.entered) :
    LineDiscipline (run p s).st := by
  obtain ⟨hproviso, hrdy, hrdyLow, hbus, hsession⟩ := hs
  obtain ⟨hdir, hproviso'⟩ := run_keeps_exitProviso hp hls hproviso
  obtain ⟨-, hparks, hoe⟩ := keepsDiscipline_iff.mp hp
  have hbus' := runList_foldl (·.busDir) _ performAction_busDir_eq p s 0x00#8 hend
  have hoe' := runList_foldl (getCell ·.out .oe) _ (performAction_latch .oe) p s 0x00#8 hend
  refine ⟨hproviso', ?_, ?_, ?_, fun he => ?_⟩
  · rw [hdir, hrdy]
  · exact (run_out_of_input hp hls (l := .rdy) hrdy).trans hrdyLow
  · exact hbus'.trans (by rw [hbus, hparks])
  · rw [hentered] at he
    obtain ⟨hhigh, hheld⟩ := hsession he
    rw [hdir, hmode]
    exact ⟨hoe'.trans (by rw [getCell, hhigh, hoe]), hheld⟩

end

/-! ### The exit list and the abort leave idle lines (R134, R42) -/

theorem exitDir_of_mem (dir : PerLine Direction) : ∀ l ∈ exitLines, getCell (exitDir dir) l = .input := by
  simp [exitLines, exitDir, getCell]

theorem exitOut_of_mem (p : Params) (dir : PerLine Direction) (out : PerLine Level) : ∀ l ∈ exitLines,
    getCell (exitOut p dir out) l = if getCell dir l = .output then .low else getCell out l := by
  simp [exitLines, exitOut, getCell]

/-- The exit list drives each Output line Low, and the proviso says that the others are Low already. -/
theorem idleLines_of_exitList {s t : State} (hs : ExitProviso s) (hdir : t.dir = exitDir s.dir)
    (hout : t.out = exitOut t.cfg s.dir s.out) (hbus : t.busDir = .input) : IdleLines t := by
  obtain ⟨hvcc, hrst, hstart, hlow, hlines⟩ := hs
  have hlist : ∀ l ∈ exitLines, getCell t.dir l = .input ∧ getCell t.out l = .low := by
    intro l hl
    rw [hdir, hout, exitDir_of_mem _ l hl, exitOut_of_mem _ _ _ l hl]
    cases hd : getCell s.dir l with
    | output => simp
    | input => simpa using hlines l hl hd
  unfold IdleLines
  refine ⟨by rw [hdir]; exact hvcc, by rw [hdir]; exact hrst, by rw [hout]; rfl, by rw [hout]; rfl, ?_, hbus⟩
  intro l hl
  obtain hl | rfl : l ∈ exitLines ∨ l = .start := by revert l; decide
  · exact hlist l hl
  · rw [hdir, hout]
    exact ⟨hstart, hlow⟩

theorem exit_idleLines {s t : State} (hs : ExitProviso s) (he : s.entered = true) (h : exec .exit s = .next t) :
    IdleLines t ∧ t.entered = false := by
  cases (exec_exit he).symm.trans h
  exact ⟨idleLines_of_exitList hs rfl rfl rfl, rfl⟩

theorem abort_idleLines {s : State} (hs : ExitProviso s) : IdleLines (abort s) := by
  rw [abort_eq]
  exact idleLines_of_exitList hs rfl rfl rfl

/-- An operation with a busy-wait is a protocol operation (R186). -/
theorem classes_of_hasPoll {i : Instr} (h : hasPoll i = true) :
    movesLines i = false ∧ isSessionOperation i = false := by
  cases i <;> simp_all [hasPoll, movesLines, isSessionOperation]

/-- Settles O28: the exit list leaves idle lines from the proviso; the list of an operation in a session keeps the
proviso up to its timeout, and the abort performs the exit list. -/
theorem exitAndAbortRestoreIdleLines : Obligations.ExitAndAbortRestoreIdleLines := by
  refine ⟨fun s t hs he h => (exit_idleLines hs he h).1, fun i s t _ hs h herr => ?_⟩
  have hresult : t.result = s.result := exec_result h (by simp [herr])
  obtain ⟨e, hc, rfl⟩ | ⟨hc, r, rfl, ⟨-, rfl⟩ | ⟨ht, rfl⟩⟩ := exec_cases h
  · exact absurd herr (refusal_ne_ok_ne_timeout hc).2
  · cases herr
  · obtain ⟨hmoves, hsess⟩ := classes_of_hasPoll (hasPoll_of_timedOut ht)
    obtain ⟨ls, hls, hk⟩ := exists_drivenLines hs hmoves hsess hc
    obtain ⟨-, hproviso⟩ := run_keeps_exitProviso (s := accept (encode i) s) hk hls hs.1
    rw [accept_encode] at hproviso
    have hmode := exec_mode h fun m hm => by simp [hm, isSessionOperation] at hsess
    exact ⟨abort_idleLines hproviso, abort_entered _, hmode, hresult⟩

/-! ### Every operation of a well-behaved host keeps the discipline (R226) -/

theorem setmode_keeps_lineDiscipline {m : Mode} {s t : State} (hs : LineDiscipline s)
    (hc : firstFailing (checksOf (.setmode m) s) = none) (h : exec (.setmode m) s = .next t) : LineDiscipline t := by
  obtain ⟨hm, he⟩ : m ≠ .unselected ∧ s.entered = false := by simpa [firstFailing_eq_none, checksOf] using hc
  cases (exec_setmode hm he).symm.trans h
  obtain ⟨hproviso, hrdy, hrdyLow, hbus, -⟩ := hs
  exact ⟨hproviso, hrdy, hrdyLow, hbus, fun hent => by simp [completed, he] at hent⟩

theorem enter_keeps_lineDiscipline {s t : State} (hs : LineDiscipline s)
    (hc : firstFailing (checksOf .enter s) = none) (h : exec .enter s = .next t) : LineDiscipline t := by
  obtain ⟨he, hm⟩ : s.entered = false ∧ s.mode ≠ .unselected := by
    simpa [firstFailing_eq_none, checksOf] using hc
  obtain ⟨⟨hvcc, hrst, hstart, hlow, hlines⟩, hrdy, hrdyLow, -, -⟩ := hs
  by_cases hserial : s.mode = .hvsp
  · cases (enterSerialRunsItsSequence.2 s he hserial).symm.trans h
    refine ⟨⟨hvcc, hrst, hstart, hlow, ?_⟩, rfl, rfl, rfl, fun _ => ⟨rfl, ?_⟩⟩
    · simp_all [exitLines, getCell]
    · simp [completed, hserial, serialOutputs, getCell]
  · have hparallel : s.mode = .atmega ∨ s.mode = .tiny2313 := by cases hmode : s.mode <;> simp_all
    obtain ⟨-, hexec⟩ := enterParallelRunsItsSequence.2.2 s he hparallel
    cases hexec.symm.trans h
    refine ⟨⟨hvcc, hrst, hstart, hlow, ?_⟩, rfl, hrdyLow, rfl, fun _ => ⟨rfl, ?_⟩⟩
    · simp_all [exitLines, getCell]
    · simp [completed, hserial, parallelOutputs, getCell]

theorem exit_keeps_lineDiscipline {s t : State} (hs : LineDiscipline s)
    (hc : firstFailing (checksOf .exit s) = none) (h : exec .exit s = .next t) : LineDiscipline t := by
  have he : s.entered = true := by simpa [firstFailing_eq_none, checksOf] using hc
  obtain ⟨hidle, hout⟩ := exit_idleLines hs.1 he h
  exact lineDiscipline_of_idleLines hidle hout

theorem exec_keeps_lineDiscipline {i : Instr} {s t : State} (hb : BetweenOperations s) (hs : LineDiscipline s)
    (hi : movesLines i = false) (h : exec i s = .next t) : LineDiscipline t := by
  obtain ⟨e, -, rfl⟩ | ⟨hc, r, rfl, ⟨ht, rfl⟩ | ⟨-, rfl⟩⟩ := exec_cases h
  · exact hs
  · cases hsess : isSessionOperation i with
    | true =>
      cases i with
      | setmode m => exact setmode_keeps_lineDiscipline hs hc h
      | enter => exact enter_keeps_lineDiscipline hs hc h
      | exit => exact exit_keeps_lineDiscipline hs hc h
      | _ => cases hsess
    | false =>
      obtain ⟨ls, hls, hk⟩ := exists_drivenLines hs hi hsess hc
      exact run_keeps_lineDiscipline hk hls hs ht
        (run_listOf_mode (fun m hm => by simp [hm, isSessionOperation] at hsess) s _)
        (run_listOf_entered (fun hn => by simp [hn, isSessionOperation] at hsess)
          (fun hx => by simp [hx, isSessionOperation] at hsess) s _)
  · obtain ⟨hidle, hout, -⟩ := exitAndAbortRestoreIdleLines.2 i s _ hb hs h (abort_err _)
    exact lineDiscipline_of_idleLines hidle hout

/-! ### Every step keeps the disciplined run -/

theorem exec_hostIn {i : Instr} {s t : State} (h : exec i s = .next t) : t.hostIn = s.hostIn := by
  obtain ⟨e, u, hx, hu⟩ := exec_completes i s
  cases hx.symm.trans h
  exact hu.hostIn

/-- A step takes the first input or none; it puts none on the queue. -/
theorem hostIn_subset_of_step {s t : State} (h : step s = .next t) : t.hostIn ⊆ s.hostIn := by
  obtain ⟨rfl, -⟩ | ⟨rest, hq, rfl⟩ | ⟨w, rest, i, -, hq, -, hx⟩ | ⟨w, rest, -, hq, -, rfl⟩ |
    ⟨w, k, rest, done, -, hq, -, rfl⟩ := step_cases h
  · exact List.Subset.refl _
  · simp [hq]
  · simp [hq, exec_hostIn hx]
  · simp [hq, refuse]
  · simp [hq]

/-- Settles O57: a legal word of a well-behaved host keeps the discipline by `exec_keeps_lineDiscipline`, a reset leaves
idle lines outside a session, and the refusal of an illegal word touches no line. -/
theorem stepKeepsTheDisciplinedRun : Obligations.StepKeepsTheDisciplinedRun := by
  rintro s t ⟨hb, hs, hhost⟩ h
  refine ⟨stepKeepsBetweenOperations s t hb h, ?_, fun x hx => hhost x (hostIn_subset_of_step h hx)⟩
  have hreset : LineDiscipline (State.ofParams s.cfg) := lineDiscipline_of_idleLines (idleLines_ofParams s.cfg) rfl
  obtain ⟨rfl, -⟩ | ⟨rest, -, rfl⟩ | ⟨w, rest, i, -, hq, hd, hx⟩ | ⟨w, rest, -, -, -, rfl⟩ |
    ⟨w, k, rest, done, -, -, -, rfl⟩ := step_cases h
  · exact hs
  · exact hreset
  · have hmoves : movesLines i = false := by simpa [hq, WellBehaved, hd] using hhost (.command w)
    exact exec_keeps_lineDiscipline (s := { s with hostIn := rest }) hb hs hmoves hx
  · exact hs
  · exact hreset

end Sys2Proof
end

section
/-! PROOFS, `42_hvpp.md`: the HVPP operations, the bus they share with the target, and the pulses they give. -/

namespace Sys2Proof

open Sys2Proof.Machine Sys2Proof.Safety

/-! ### A list run to its end, apart from `upc` (R26) -/

/-- In a run under way the list `p` leads from `s` to `t`, whatever `upc` and the value last sampled are. -/
def Runs (p : List Action) (s t : State) : Prop :=
  ∀ u v, ∃ u' v', runList p ⟨{ s with upc := u }, v, false⟩ = ⟨{ t with upc := u' }, v', false⟩

theorem Runs.append {p q : List Action} {s t r : State} (hp : Runs p s t) (hq : Runs q t r) :
    Runs (p ++ q) s r := by
  intro u v
  obtain ⟨u', v', ht⟩ := hp u v
  obtain ⟨u'', v'', hr⟩ := hq u' v'
  exact ⟨u'', v'', by rw [runList_append, ht, hr]⟩

theorem Runs.run {p : List Action} {s t : State} (h : Runs p s t) :
    ∃ u v, run p s = ⟨{ t with upc := u }, v, false⟩ :=
  h s.upc 0x00#8

theorem Runs.conduct {p : List Action} {s t : State} (h : Runs p s t) : conduct p s = complete .ok t := by
  obtain ⟨u, v, ht⟩ := h.run
  exact (conduct_done ht).trans rfl

/-- Completion clears `upc`, so `Runs` is enough to know how an operation completes. -/
theorem exec_of_runs {i : Instr} {s t : State} (hc : firstFailing (checksOf i s) = none)
    (h : Runs (listOf i s) (accept (encode i) s) t) : exec i s = .next (complete .ok t) := by
  rw [exec_of_accepted hc, h.conduct]

/-! ### The busy-wait does not read `upc` (R186) -/

theorem smpLine_upc_eq (l : Line) (s : State) (u : BitVec 9) :
    smpLine l { s with upc := u } = { smpLine l s with upc := u } := by
  unfold smpLine useLevel
  cases hd : getCell s.dir l <;> cases hp : s.pinIn <;> simp [hd, hp, sampledLevel]

theorem pollLoop_upc_eq (l : Line) (n : Nat) (s : State) (u : BitVec 9) :
    pollLoop l n { s with upc := u } = ({ (pollLoop l n s).1 with upc := u }, (pollLoop l n s).2) := by
  have hlevel (s : State) : sampledLevel l { s with upc := u } = sampledLevel l s := rfl
  induction n generalizing s with
  | zero =>
    simp only [pollLoop, hlevel, smpLine_upc_eq]
    cases sampledLevel l s <;> rfl
  | succ n ih =>
    simp only [pollLoop, hlevel, smpLine_upc_eq]
    cases sampledLevel l s
    · exact ih (waitUs s.cfg.tPollUs (countLow (smpLine l s)))
    · rfl

theorem poll_upc_eq (l : Line) (s : State) (u : BitVec 9) :
    poll l { s with upc := u } = ({ (poll l s).1 with upc := u }, (poll l s).2) :=
  pollLoop_upc_eq l _ { s with pcnt := 0 } u

theorem poll_runs {l : Line} {s : State} (h : (poll l s).2 = true) : Runs [.poll l] s (poll l s).1 := by
  intro u v
  exact ⟨_, v, performAction_poll_done (q := { (poll l s).1 with upc := u }) v false (by rw [poll_upc_eq, h])⟩

/-- A list with a busy-wait that runs out: the rest of the list is dropped (R187). -/
theorem conduct_of_poll_timeout {p q : List Action} {l : Line} {s t : State} (hp : Runs p s t)
    (h : (poll l t).2 = false) : conduct (p ++ .poll l :: q) s = abort (poll l t).1 := by
  obtain ⟨u, v, ht⟩ := hp.run
  refine conduct_timeout (v := v) (t := { (poll l t).1 with upc := u }) ?_
  rw [run] at ht ⊢
  rw [runList_append, ht, runList_cons, stepRun_running,
    performAction_poll_timeout v false (by rw [poll_upc_eq, h]), runList_timedOut]

/-! ### The pieces of the HVPP lists (R140, R143, R144, R145) -/

theorem loadList_runs (m : Mode) (xa1 xa0 : Level) (b : Byte) (s : State) : Runs (loadList m s.cfg xa1 xa0 b) s { s with
    out := loadOut m xa1 xa0 s.out
    busDir := .input
    busOut := b
    trace := s.trace ++ loadTrace m s.cfg xa1 xa0 b } := by
  intro u v
  by_cases hm : m = .atmega <;>
    simp [loadList, restBs2, strobeList, busHoldList, hm, performAction, drvLine, busDirection, busDrive, waitMs,
      advance, setCell, loadOut, loadTrace]

/-- Role BS2 in a parallel mode (R25). -/
theorem drvRole_bs2 {m : Mode} (hm : m = .atmega ∨ m = .tiny2313) (v : Level) :
    drvRole m .bs2 v = [.drv (bs2Line m) v] := by
  obtain rfl | rfl := hm <;> rfl

/-- Driving the select roles BS1 and BS2 (R143). -/
theorem selectRoles_runs {m : Mode} (hm : m = .atmega ∨ m = .tiny2313) (v w : Level) (s : State) :
    Runs (.drv .bs1 v :: drvRole m .bs2 w) s { s with
      out := selectRolesOut m v w s.out
      trace := s.trace ++ [.drv .bs1 v, .drv (bs2Line m) w] } := by
  intro u b
  rw [drvRole_bs2 hm]
  obtain rfl | rfl := hm <;> simp [performAction, drvLine, advance, bs2Line, setCell, selectRolesOut]

theorem selectList_runs {m : Mode} (hm : m = .atmega ∨ m = .tiny2313) (f : FuseSel) (s : State) :
    Runs (selectList m f) s { s with out := selectOut m f s.out, trace := s.trace ++ selectTrace m f } := by
  cases f <;> exact selectRoles_runs hm _ _ s

/-- What `DESELECT` makes of a state (R143). -/
def deselected (s : State) : State := { s with
  out := selectRolesOut s.mode .low .low s.out, trace := s.trace ++ deselectTrace s.mode }

theorem deselectList_runs {s : State} (hm : s.mode = .atmega ∨ s.mode = .tiny2313) :
    Runs (deselectList s.mode) s (deselected s) :=
  selectRoles_runs hm _ _ s

theorem parkBus_runs (s : State) :
    Runs [.bdir .input] s { s with busDir := .input, trace := s.trace ++ [.bdir .input] } :=
  fun u v => ⟨u + 1#9, v, rfl⟩

/-- The burn pulse, up to the busy-wait (R144). -/
def pulseWrList (p : Params) : List Action := [.waitMs p.tSelSetupMs, .drv .wr .low, .waitMs p.tWrLowMs, .drv .wr .high]

theorem pulseWrList_runs (s : State) : Runs (pulseWrList s.cfg) s { s with
    out := { s.out with wr := .high }, trace := s.trace ++ pulseWrTrace s.cfg } := by
  intro u v
  simp [pulseWrList, performAction, drvLine, waitMs, advance, setCell, pulseWrTrace]

/-- The events of the output-enable pulse around the bus sample `v` (R145). -/
def pulseOeTrace (p : Params) (v : Byte) : List Event := [.drv .oe .low, .waitMs p.tOeMs, .bsmp v, .drv .oe .high]

/-- The byte the environment gives a sample of the Input bus, a free one where its script is empty (R31, R34). -/
def busAnswer (s : State) : Byte := s.busIn.headD (Config.freeByte s.draws)

/-- The free values drawn after a sample of the Input bus. -/
def busDraws (s : State) : Nat := if s.busIn.isEmpty then s.draws + 1 else s.draws

/-- The output-enable pulse, whatever the environment answers to its sample of the Input bus (R145). -/
theorem readBusList_runs {s : State} (hd : s.busDir = .input) : Runs (readBusList s.cfg) s { s with
    out := { s.out with oe := .high }
    result := busAnswer s
    busIn := s.busIn.tail
    draws := busDraws s
    trace := s.trace ++ pulseOeTrace s.cfg (busAnswer s) } := by
  intro u v
  cases hb : s.busIn <;>
    simp [readBusList, performAction, drvLine, waitMs, busSample, useByte, sampledByte, hd, hb, advance, setCell,
      pulseOeTrace, busAnswer, busDraws]

/-- The events of `PP_RDFUSE` whose sample is `v` (R145). -/
def readTrace (m : Mode) (p : Params) (f : FuseSel) (v : Byte) : List Event :=
  loadTrace m p .high .low 0x04#8 ++ [.bdir .input] ++ selectTrace m f ++ pulseOeTrace p v

theorem loadOut_loadOut (m : Mode) (a b c d : Level) (out : PerLine Level) :
    loadOut m a b (loadOut m c d out) = loadOut m a b out := by
  cases m <;> rfl

/-! ### `PP_WRFUSE` up to its busy-wait (R144) -/

/-- The list of `PP_WRFUSE` up to its busy-wait (R144). -/
def burningList (m : Mode) (p : Params) (f : FuseSel) (v : Byte) : List Action :=
  sendCommandList m p 0x40#8 ++ loadFuseDataList m p v ++ selectList m f ++ pulseWrList p

theorem ppWriteList_eq (m : Mode) (p : Params) (f : FuseSel) (v : Byte) :
    ppWriteList m p f v = burningList m p f v ++ .poll .rdy :: deselectList m := by
  simp [ppWriteList, burningList, burnList, pulseWrList]

/-- The state in which `PP_WRFUSE` starts its busy-wait (R144). -/
def burning (f : FuseSel) (v : Byte) (s : State) : State := { accept (encode (.ppWrfuse f.bits v)) s with
  out := burnOut s.mode f s.out
  busDir := .input
  busOut := v
  trace := s.trace ++ burnTrace s.mode s.cfg f v }

/-! ### Inside a parallel session (R140, R182) -/

section

variable {s : State} (he : s.entered = true) (hm : s.mode = .atmega ∨ s.mode = .tiny2313)

include he hm

theorem parallelChecks : notEnteredCheck s = none ∧ parallelCheck s = none := by
  refine ⟨notEnteredCheck_eq_none.mpr he, parallelCheck_eq_none.mpr ?_⟩
  rcases hm with hm | hm <;> simp [hm]

theorem exec_ppSendcmd (b : Byte) : exec (.ppSendcmd b) s = .next { completed (.ppSendcmd b) .ok s.result s with
    out := loadOut s.mode .high .low s.out
    busDir := .input
    busOut := b
    trace := s.trace ++ loadTrace s.mode s.cfg .high .low b } := by
  have hc : firstFailing (checksOf (.ppSendcmd b) s) = none := by
    simp [checksOf, parallelChecks he hm, firstFailing]
  rw [exec_of_runs hc (loadList_runs s.mode .high .low b (accept _ s)), accept_encode]
  rfl

theorem exec_ppLoaddata (b : Byte) : exec (.ppLoaddata b) s = .next { completed (.ppLoaddata b) .ok s.result s with
    out := loadOut s.mode .low .high s.out
    busDir := .input
    busOut := b
    trace := s.trace ++ loadTrace s.mode s.cfg .low .high b } := by
  have hc : firstFailing (checksOf (.ppLoaddata b) s) = none := by
    simp [checksOf, parallelChecks he hm, firstFailing]
  rw [exec_of_runs hc (loadList_runs s.mode .low .high b (accept _ s)), accept_encode]
  rfl

omit he in
/-- The primitives of `PP_WRFUSE` up to its busy-wait (R144). -/
theorem burning_runs (f : FuseSel) (v : Byte) :
    Runs (burningList s.mode s.cfg f v) (accept (encode (.ppWrfuse f.bits v)) s) (burning f v s) := by
  have h := (((loadList_runs s.mode .high .low 0x40#8 (accept (encode (.ppWrfuse f.bits v)) s)).append
    (loadList_runs s.mode .low .high v _)).append (selectList_runs hm f _)).append (pulseWrList_runs _)
  simpa [loadOut_loadOut, burning, burningList, burnOut, burnTrace, sendCommandList, loadFuseDataList] using h

/-- `PP_WRFUSE`, whatever the environment answers to its busy-wait (R144, R187). -/
theorem exec_ppWrfuse {f : FuseSel} (hf : f = .extended → s.cfg.extEn = true) (v : Byte) :
    exec (.ppWrfuse f.bits v) s = .next (if (poll .rdy (burning f v s)).2
      then complete .ok (deselected (poll .rdy (burning f v s)).1)
      else abort (poll .rdy (burning f v s)).1) := by
  have hfuse := fuse_bits f s.cfg.extEn hf
  have hc : firstFailing (checksOf (.ppWrfuse f.bits v) s) = none := by
    simp [checksOf, parallelChecks he hm, selectorCheck, hfuse, firstFailing]
  have hlist : listOf (.ppWrfuse f.bits v) s = burningList s.mode s.cfg f v ++ .poll .rdy :: deselectList s.mode := by
    simp [listOf, withFuse, hfuse, ppWriteList_eq]
  rw [exec_of_accepted hc, hlist]
  cases hp : (poll .rdy (burning f v s)).2 with
  | false => rw [conduct_of_poll_timeout (burning_runs hm f v) hp]; rfl
  | true =>
    have hmode : (poll .rdy (burning f v s)).1.mode = s.mode := by simp [burning]
    have hdeselect := deselectList_runs (hmode ▸ hm)
    rw [hmode] at hdeselect
    rw [if_pos rfl, ← ((burning_runs hm f v).append ((poll_runs hp).append hdeselect)).conduct]
    rfl

/-- `PP_RDFUSE`, whatever the environment answers to its sample (R145). -/
theorem exec_ppRdfuse {f : FuseSel} (hf : f = .extended → s.cfg.extEn = true) :
    exec (.ppRdfuse f.bits) s = .next { completed (.ppRdfuse f.bits) .ok (busAnswer s) s with
      out := { selectOut s.mode f (loadOut s.mode .high .low s.out) with oe := .high }
      busDir := .input
      busOut := 0x04#8
      busIn := s.busIn.tail
      draws := busDraws s
      trace := s.trace ++ readTrace s.mode s.cfg f (busAnswer s) } := by
  have hfuse := fuse_bits f s.cfg.extEn hf
  have hc : firstFailing (checksOf (.ppRdfuse f.bits) s) = none := by
    simp [checksOf, parallelChecks he hm, selectorCheck, hfuse, firstFailing]
  have hlist : listOf (.ppRdfuse f.bits) s = sendCommandList s.mode s.cfg 0x04#8 ++ [.bdir .input] ++
      selectList s.mode f ++ readBusList s.cfg := by
    simp [listOf, withFuse, hfuse, ppReadList]
  have hruns := (((loadList_runs s.mode .high .low 0x04#8 (accept (encode (.ppRdfuse f.bits)) s)).append
    (parkBus_runs _)).append (selectList_runs hm f _)).append (readBusList_runs rfl)
  rw [exec_of_runs hc (hlist ▸ hruns), accept_encode]
  simp only [readTrace, ← List.append_assoc]
  rfl

end

/-- Settles O31: from the burning state the busy-wait ends with its High sample, and the deselect follows. -/
theorem ppWrfuseBurnsWhenTheTargetGetsReady : Obligations.PpWrfuseBurnsWhenTheTargetGetsReady := by
  intro f v s m rest he hm hf hd hp hlt
  have hpoll := pollLoop_ready .rdy m s.cfg.pollLimitPred { burning f v s with pcnt := 0 } rest hd hp
    (Nat.le_of_lt_succ hlt)
  have hready : poll .rdy (burning f v s) = _ := hpoll
  rw [exec_ppWrfuse he hm hf, hready, if_pos rfl, burning, accept_encode]
  simp [deselected, completed, complete, pollReadyTrace]

/-- Settles O32: from the burning state the busy-wait runs out, and the abort performs the exit list. -/
theorem ppWrfuseTimeoutRunsTheExitList : Obligations.PpWrfuseTimeoutRunsTheExitList := by
  intro f v s rest he hm hf hd hp
  have hpoll := pollLoop_timeout .rdy s.cfg.pollLimitPred { burning f v s with pcnt := 0 } rest hd hp
  have hlate : poll .rdy (burning f v s) = _ := hpoll
  rw [exec_ppWrfuse he hm hf, hlate, if_neg Bool.false_ne_true, abort_eq, burning, accept_encode]
  simp [completed, pollTimeoutTrace, pollLimit]

/-- Settles O33: `exec_ppRdfuse`, with a script that answers the sample or none. -/
theorem ppRdfuseReturnsTheBusByte : Obligations.PpRdfuseReturnsTheBusByte := by
  intro f s he hm hf
  refine ⟨fun v rest hb => ?_, fun hb => ?_⟩ <;> rw [exec_ppRdfuse he hm hf] <;>
    simp [busAnswer, busDraws, hb, completed, readTrace, pulseOeTrace]

/-- Settles O29: the primitives of one `LOAD`, action select High, Low. -/
theorem ppSendcmdLoadsACommandByte : Obligations.PpSendcmdLoadsACommandByte :=
  fun b _ he hm => ⟨rfl, exec_ppSendcmd he hm b⟩

/-- Settles O30: the primitives of one `LOAD`, action select Low, High. -/
theorem ppLoaddataLoadsADataByte : Obligations.PpLoaddataLoadsADataByte :=
  fun b _ he hm => ⟨rfl, exec_ppLoaddata he hm b⟩
/-! ### Reading off the trace of an operation -/

theorem eventsOf_eq {s t : State} {es : List Event} (h : t.trace = s.trace ++ es) : eventsOf s t = es := by
  simp [eventsOf, h]

/-- `PP_WRFUSE` burns, then samples and waits, then deselects or, after a timeout, runs the exit list (R144, R187). -/
theorem ppWrfuse_events {f : FuseSel} {v : Byte} {s t : State} (he : s.entered = true)
    (hm : s.mode = .atmega ∨ s.mode = .tiny2313) (hf : f = .extended → s.cfg.extEn = true)
    (h : exec (.ppWrfuse f.bits v) s = .next t) : ∃ polls, polls.all (isPollEvent .rdy) = true ∧
      ((t.err = .ok ∧ eventsOf s t = burnTrace s.mode s.cfg f v ++ polls ++ deselectTrace s.mode ∧
          t.out = selectRolesOut s.mode .low .low (burnOut s.mode f s.out)) ∨
        (t.err = .targetTimeout ∧
          eventsOf s t = burnTrace s.mode s.cfg f v ++ polls ++ exitTrace s.cfg s.dir)) := by
  obtain ⟨polls, hpolls, hall⟩ := poll_trace .rdy (burning f v s)
  obtain ⟨hmode, hcfg, hdir, hout, hburn⟩ : (burning f v s).mode = s.mode ∧ (burning f v s).cfg = s.cfg ∧
      (burning f v s).dir = s.dir ∧ (burning f v s).out = burnOut s.mode f s.out ∧
      (burning f v s).trace = s.trace ++ burnTrace s.mode s.cfg f v := ⟨rfl, rfl, rfl, rfl, rfl⟩
  rw [hburn] at hpolls
  refine ⟨polls, hall, ?_⟩
  rw [exec_ppWrfuse he hm hf] at h
  cases hp : (poll .rdy (burning f v s)).2 with
  | true =>
    rw [hp, if_pos rfl] at h
    cases h
    refine .inl ⟨rfl, eventsOf_eq ?_, ?_⟩
    · simp [deselected, hpolls, hmode]
    · simp [deselected, hmode, hout]
  | false =>
    rw [hp, if_neg Bool.false_ne_true] at h
    cases h
    refine .inr ⟨abort_err _, eventsOf_eq ?_⟩
    simp [abort_eq, hpolls, hcfg, hdir]

theorem ppRdfuse_events {f : FuseSel} {s t : State} (he : s.entered = true)
    (hm : s.mode = .atmega ∨ s.mode = .tiny2313) (hf : f = .extended → s.cfg.extEn = true)
    (h : exec (.ppRdfuse f.bits) s = .next t) : eventsOf s t = readTrace s.mode s.cfg f (busAnswer s) := by
  cases (exec_ppRdfuse he hm hf).symm.trans h
  exact eventsOf_eq rfl

/-! ### The place of the select pattern (R144, R145, R146) -/

theorem loadTrace_length (m : Mode) (p : Params) (xa1 xa0 : Level) (b : Byte) :
    (loadTrace m p xa1 xa0 b).length = if m = .atmega then 12 else 11 := by
  cases m <;> rfl

theorem selectTrace_length (m : Mode) (f : FuseSel) : (selectTrace m f).length = 2 := by
  cases f <;> rfl

/-- The two events of `SELECT`, after as many events as stand before them. -/
theorem selectTrace_at {before after : List Event} {n : Nat} (m : Mode) (f : FuseSel) (h : before.length = n) :
    ((before ++ selectTrace m f ++ after).drop n).take 2 = selectTrace m f := by
  rw [List.append_assoc, List.drop_left' h, List.take_left' (selectTrace_length m f)]

/-- Settles O34: two loads stand before the pattern on the burn path, one load and the parking of the bus on the read
path. -/
theorem selectPatternIsTheSameOnBothPaths : Obligations.SelectPatternIsTheSameOnBothPaths := by
  intro f v s r tw tr hs hr hm hmode hf hw hrd
  constructor
  · obtain ⟨rest, hrest⟩ : ∃ rest, eventsOf s tw = burnTrace s.mode s.cfg f v ++ rest := by
      obtain ⟨polls, -, ⟨-, he, -⟩ | ⟨-, he⟩⟩ := ppWrfuse_events hs hm (fun h => (hf h).1) hw <;>
        exact ⟨_, he.trans (List.append_assoc ..)⟩
    rw [hrest, burnTrace, List.append_assoc _ (pulseWrTrace _)]
    refine selectTrace_at s.mode f ?_
    rw [List.length_append, loadTrace_length, loadTrace_length]
    split <;> rfl
  · rw [ppRdfuse_events hr (hmode ▸ hm) (fun h => (hf h).2) hrd, readTrace, hmode]
    refine selectTrace_at s.mode f ?_
    rw [List.length_append, loadTrace_length]
    split <;> rfl

/-! ### Pulses (R146) -/

/-- The events give `n` pulses on line `l` from its resting level `v`, and leave it at `v`. -/
structure Pulses (l : Line) (v : Level) (n : Nat) (es : List Event) : Prop where
  rising (rest : List Event) : risingEdges l v (es ++ rest) = n + risingEdges l v rest
  falling (rest : List Event) : fallingEdges l v (es ++ rest) = n + fallingEdges l v rest

theorem Pulses.edges {l : Line} {v : Level} {n : Nat} {es : List Event} (h : Pulses l v n es) :
    risingEdges l v es = n ∧ fallingEdges l v es = n :=
  ⟨by simpa [risingEdges] using h.rising [], by simpa [fallingEdges] using h.falling []⟩

theorem Pulses.append {l : Line} {v : Level} {n k : Nat} {es es' : List Event} (h : Pulses l v n es)
    (h' : Pulses l v k es') : Pulses l v (n + k) (es ++ es') where
  rising rest := by rw [List.append_assoc, h.rising, h'.rising, Nat.add_assoc]
  falling rest := by rw [List.append_assoc, h.falling, h'.falling, Nat.add_assoc]

/-- Events that do not drive a line give no pulse on it. -/
theorem pulses_zero {l : Line} {es : List Event} (h : es.all (fun e => !isDriveOf l e) = true) (v : Level) :
    Pulses l v 0 es := by
  induction es with
  | nil => exact ⟨fun _ => by simp, fun _ => by simp⟩
  | cons e es ih =>
    obtain ⟨he, hes⟩ : isDriveOf l e = false ∧ es.all (fun e => !isDriveOf l e) = true := by simpa using h
    obtain ⟨hr, hf⟩ := ih hes
    cases e with
    | drv m w =>
      have hne : m ≠ l := by simpa [isDriveOf] using he
      exact ⟨by simpa [risingEdges, hne] using hr, by simpa [fallingEdges, hne] using hf⟩
    | _ => exact ⟨hr, hf⟩

theorem pulses_poll {polls : List Event} (h : polls.all (isPollEvent .rdy) = true) (l : Line) (v : Level) :
    Pulses l v 0 polls := by
  refine pulses_zero (List.all_eq_true.mpr fun e he => ?_) v
  rw [not_isDriveOf_of_isPollEvent (List.all_eq_true.mp h e he)]
  rfl

theorem loadTrace_pulses_xtal1 (m : Mode) (p : Params) (xa1 xa0 : Level) (b : Byte) :
    Pulses .xtal1 .low 1 (loadTrace m p xa1 xa0 b) := by
  constructor <;> intro rest <;> by_cases hm : m = .atmega <;> simp [loadTrace, hm, risingEdges, fallingEdges]

/-- A `LOAD` leaves WR and OE alone (R140). -/
theorem loadTrace_pulses_zero {l : Line} (hl : l = .wr ∨ l = .oe) (m : Mode) (p : Params) (xa1 xa0 : Level) (b : Byte)
    (v : Level) : Pulses l v 0 (loadTrace m p xa1 xa0 b) := by
  refine pulses_zero ?_ v
  obtain rfl | rfl := hl <;> cases m <;> rfl

/-- The select roles are carried by neither XTAL1, WR nor OE (R25, R143). -/
theorem selectTrace_pulses_zero {l : Line} (hl : l = .xtal1 ∨ l = .wr ∨ l = .oe) (m : Mode) (f : FuseSel)
    (v : Level) : Pulses l v 0 (selectTrace m f) := by
  refine pulses_zero ?_ v
  obtain rfl | rfl | rfl := hl <;> cases m <;> cases f <;> rfl

/-- `DESELECT` drives what `SELECT` of the Low fuse drives (R143, R89). -/
theorem deselectTrace_pulses_zero {l : Line} (hl : l = .xtal1 ∨ l = .wr ∨ l = .oe) (m : Mode) (v : Level) :
    Pulses l v 0 (deselectTrace m) :=
  selectTrace_pulses_zero hl m .low v

theorem pulseWrTrace_pulses_wr (p : Params) : Pulses .wr .high 1 (pulseWrTrace p) := by
  constructor <;> simp [pulseWrTrace, risingEdges, fallingEdges]

theorem pulseOeTrace_pulses_oe (p : Params) (v : Byte) : Pulses .oe .high 1 (pulseOeTrace p v) := by
  constructor <;> simp [pulseOeTrace, risingEdges, fallingEdges]

theorem burnTrace_pulses_xtal1 (m : Mode) (p : Params) (f : FuseSel) (v : Byte) :
    Pulses .xtal1 .low 2 (burnTrace m p f v) :=
  (((loadTrace_pulses_xtal1 ..).append (loadTrace_pulses_xtal1 ..)).append
    (selectTrace_pulses_zero (by simp) m f _)).append (pulses_zero (es := pulseWrTrace p) rfl _)

theorem burnTrace_pulses_wr (m : Mode) (p : Params) (f : FuseSel) (v : Byte) :
    Pulses .wr .high 1 (burnTrace m p f v) :=
  (((loadTrace_pulses_zero (by simp) ..).append (loadTrace_pulses_zero (by simp) ..)).append
    (selectTrace_pulses_zero (by simp) m f _)).append (pulseWrTrace_pulses_wr p)

theorem readTrace_pulses_xtal1 (m : Mode) (p : Params) (f : FuseSel) (v : Byte) :
    Pulses .xtal1 .low 1 (readTrace m p f v) :=
  (((loadTrace_pulses_xtal1 ..).append (pulses_zero (es := [.bdir .input]) rfl _)).append
    (selectTrace_pulses_zero (by simp) m f _)).append (pulses_zero (es := pulseOeTrace p v) rfl _)

theorem readTrace_pulses_oe (m : Mode) (p : Params) (f : FuseSel) (v : Byte) :
    Pulses .oe .high 1 (readTrace m p f v) :=
  (((loadTrace_pulses_zero (by simp) ..).append (pulses_zero (es := [.bdir .input]) rfl _)).append
    (selectTrace_pulses_zero (by simp) m f _)).append (pulseOeTrace_pulses_oe p v)

theorem selectRolesOut_roles (m : Mode) (v w : Level) (out : PerLine Level) :
    (selectRolesOut m v w out).bs1 = v ∧ getCell (selectRolesOut m v w out) (bs2Line m) = w := by
  cases m <;> exact ⟨rfl, rfl⟩

/-- Settles O37: each operation's events are pieces with a known number of pulses. -/
theorem hvppPulseCounts : Obligations.HvppPulseCounts := by
  intro b f s t he hm hf _ _ _
  refine ⟨fun h => ?_, fun h herr => ?_, fun h => ?_⟩
  · have hload : ∃ xa1 xa0, eventsOf s t = loadTrace s.mode s.cfg xa1 xa0 b := by
      obtain h | h := h
      · cases (exec_ppSendcmd he hm b).symm.trans h
        exact ⟨_, _, eventsOf_eq rfl⟩
      · cases (exec_ppLoaddata he hm b).symm.trans h
        exact ⟨_, _, eventsOf_eq rfl⟩
    obtain ⟨xa1, xa0, hload⟩ := hload
    rw [hload]
    exact (loadTrace_pulses_xtal1 ..).edges
  · obtain ⟨polls, hpolls, ⟨-, hevents, hout⟩ | ⟨htime, -⟩⟩ := ppWrfuse_events he hm hf h
    · have hpulses {l : Line} {v : Level} {n : Nat} (hl : l = .xtal1 ∨ l = .wr ∨ l = .oe)
          (hburn : Pulses l v n (burnTrace s.mode s.cfg f b)) : Pulses l v n (eventsOf s t) :=
        hevents ▸ (hburn.append (pulses_poll hpolls l v)).append (deselectTrace_pulses_zero hl s.mode v)
      obtain ⟨hxr, hxf⟩ := (hpulses (by simp) (burnTrace_pulses_xtal1 ..)).edges
      obtain ⟨hwr, hwf⟩ := (hpulses (by simp) (burnTrace_pulses_wr ..)).edges
      exact ⟨hxr, hxf, hwf, hwr, hout ▸ selectRolesOut_roles ..⟩
    · cases herr.symm.trans htime
  · rw [ppRdfuse_events he hm hf h]
    obtain ⟨hxr, hxf⟩ := (readTrace_pulses_xtal1 s.mode s.cfg f (busAnswer s)).edges
    obtain ⟨hor, hof⟩ := (readTrace_pulses_oe s.mode s.cfg f (busAnswer s)).edges
    exact ⟨hxr, hxf, hof, hor⟩

/-! ### The bus after an operation (R146 (a)) -/

theorem exists_fuse {s : State} {sel : BitVec 2} (h : selectorCheck s sel = none) :
    ∃ f, fuse? s.cfg.extEn sel = some f := by
  unfold selectorCheck at h
  split at h
  · next f hf => exact ⟨f, hf⟩
  · cases h

/-- An HVPP operation that passes its checks loads a byte, burns a fuse or reads one. -/
theorem hvpp_listOf {i : Instr} {s : State} (hi : isHvpp i = true) (hc : firstFailing (checksOf i s) = none) :
    (∃ xa1 xa0 b, listOf i s = loadList s.mode s.cfg xa1 xa0 b) ∨
    (∃ f v, listOf i s = ppWriteList s.mode s.cfg f v) ∨ (∃ f, listOf i s = ppReadList s.mode s.cfg f) := by
  rw [firstFailing_eq_none] at hc
  cases i with
  | ppSendcmd b => exact .inl ⟨_, _, b, rfl⟩
  | ppLoaddata b => exact .inl ⟨_, _, b, rfl⟩
  | ppWrfuse sel v =>
    obtain ⟨f, hf⟩ := exists_fuse (hc (selectorCheck s sel) (by simp [checksOf]))
    exact .inr (.inl ⟨f, v, by simp [listOf, withFuse, hf]⟩)
  | ppRdfuse sel =>
    obtain ⟨f, hf⟩ := exists_fuse (hc (selectorCheck s sel) (by simp [checksOf]))
    exact .inr (.inr ⟨f, by simp [listOf, withFuse, hf]⟩)
  | _ => cases hi

/-- Every HVPP list parks the bus, wherever it finds it. -/
theorem hvpp_parks {i : Instr} {s : State} (hi : isHvpp i = true) (hc : firstFailing (checksOf i s) = none)
    (d : Direction) : (listOf i s).foldl busDirAfter d = .input := by
  obtain ⟨xa1, xa0, b, h⟩ | ⟨f, v, h⟩ | ⟨f, h⟩ := hvpp_listOf hi hc <;> rw [h] <;> cases s.mode <;> rfl

/-- Settles O35: a list that runs to its end parks the bus, the exit list does, and a refusal does not touch it. -/
theorem hvppOperationsParkTheBus : Obligations.HvppOperationsParkTheBus := by
  intro i s t hi h
  have hw : i.wellFormed = true := by
    cases i with
    | setmode m => cases hi
    | _ => rfl
  rw [← checks_eq i s hw]
  obtain ⟨e, hc, rfl⟩ | ⟨hc, r, rfl, ⟨hend, rfl⟩ | ⟨-, rfl⟩⟩ := exec_cases h
  · simp [hc, completed]
  · have hbus := runList_foldl (·.busDir) _ performAction_busDir_eq (listOf i s) _ 0x00#8 hend
    simpa [hc, run, hvpp_parks hi hc] using hbus
  · simp [hc, abort_eq]

/-! ### The bus while OE is Low (R221), list by list -/

/-- While OE is Low the bus is Input, before, between and after the entries of the list. -/
def sharesBus : Direction → Level → List Action → Bool
  | d, oe, [] => decide (oe = .low → d = .input)
  | d, oe, a :: p => decide (oe = .low → d = .input) && sharesBus (busDirAfter d a) (latchAfter .oe oe a) p

theorem sharesBus_start {d : Direction} {oe : Level} {p : List Action} (h : sharesBus d oe p = true) :
    oe = .low → d = .input := by
  cases p with
  | nil => exact of_decide_eq_true h
  | cons a p => exact of_decide_eq_true (Bool.and_eq_true_iff.mp h).1

/-- An entry that leaves a parked bus parked. -/
def keepsParked (a : Action) : Bool := decide (busDirAfter .input a = .input)

/-- From a parked bus, a list that never makes it an Output may drive OE as it likes. -/
theorem sharesBus_of_parked {p : List Action} (h : p.all keepsParked = true) (oe : Level) :
    sharesBus .input oe p = true := by
  induction p generalizing oe with
  | nil => exact decide_eq_true fun _ => rfl
  | cons a p ih =>
    obtain ⟨ha, hp⟩ : busDirAfter .input a = .input ∧ p.all keepsParked = true := by simpa [keepsParked] using h
    simp [sharesBus, ha, ih hp]

/-- The events from `s` to `t` never fight for the bus, and they account for the bus direction and OE of `t`. -/
def BusSafe (s t : State) : Prop :=
  ∃ es, t.trace = s.trace ++ es ∧ neverFightsForBus s.busDir s.out.oe es = true ∧
    busAndOeAfter s.busDir s.out.oe es = (t.busDir, t.out.oe)

theorem BusSafe.trans {s t r : State} (h : BusSafe s t) (h' : BusSafe t r) : BusSafe s r := by
  obtain ⟨es, ht, hsafe, hafter⟩ := h
  obtain ⟨es', hr, hsafe', hafter'⟩ := h'
  exact ⟨es ++ es', by rw [hr, ht, List.append_assoc], by simp [neverFightsForBus_append, hsafe, hafter, hsafe'],
    by simp [busAndOeAfter_append, hafter, hafter']⟩

/-- The bus is Input at the end if OE is Low there. -/
theorem BusSafe.final {s t : State} (h : BusSafe s t) : t.out.oe = .low → t.busDir = .input := by
  obtain ⟨es, -, hsafe, hafter⟩ := h
  rw [← List.append_nil es, neverFightsForBus_append, hafter] at hsafe
  exact of_decide_eq_true (Bool.and_eq_true_iff.mp hsafe).2

/-- An event that moves the bus direction or OE. -/
def movesBusOrOe : Event → Bool
  | .bdir _ => true
  | .drv .oe _ => true
  | _ => false

theorem still_events {es : List Event} (h : es.all (fun e => !movesBusOrOe e) = true) {d : Direction} {oe : Level}
    (hs : oe = .low → d = .input) : neverFightsForBus d oe es = true ∧ busAndOeAfter d oe es = (d, oe) := by
  induction es with
  | nil => exact ⟨decide_eq_true hs, rfl⟩
  | cons e es ih =>
    obtain ⟨he, hes⟩ : movesBusOrOe e = false ∧ es.all (fun e => !movesBusOrOe e) = true := by simpa using h
    obtain ⟨hsafe, hafter⟩ := ih hes
    have hstart : decide (oe = .low → d = .input) = true := decide_eq_true hs
    cases e with
    | bdir d' => cases he
    | drv l v =>
      cases l with
      | oe => cases he
      | _ => exact ⟨Bool.and_eq_true_iff.mpr ⟨hstart, hsafe⟩, hafter⟩
    | _ => exact ⟨Bool.and_eq_true_iff.mpr ⟨hstart, hsafe⟩, hafter⟩

theorem busSafe_of_still {s t : State} {es : List Event} (hs : s.out.oe = .low → s.busDir = .input)
    (ht : t.trace = s.trace ++ es) (hstill : es.all (fun e => !movesBusOrOe e) = true) (hbus : t.busDir = s.busDir)
    (hoe : t.out.oe = s.out.oe) : BusSafe s t := by
  obtain ⟨hsafe, hafter⟩ := still_events hstill hs
  exact ⟨es, ht, hsafe, by rw [hafter, hbus, hoe]⟩

/-- An entry that is neither a `BDIR` nor a drive of OE gives no such event. -/
theorem performAction_still {a : Action} (hb : ∀ d, a ≠ .bdir d) (ho : ∀ v, a ≠ .drv .oe v) (q : Run) :
    ∃ es, (performAction q a).st.trace = q.st.trace ++ es ∧ es.all (fun e => !movesBusOrOe e) = true := by
  cases a with
  | poll l =>
    obtain ⟨es, he, hall⟩ := poll_trace l q.st
    refine ⟨es, by simp only [performAction]; split <;> exact he, List.all_eq_true.mpr fun e hmem => ?_⟩
    have hpoll := List.all_eq_true.mp hall e hmem
    cases e with
    | smp | waitUs => rfl
    | _ => cases hpoll
  | drv l v => cases l <;> simp_all [performAction, movesBusOrOe]
  | _ => simp_all [performAction, movesBusOrOe]

/-- An entry that finds and leaves the bus Input, or OE High, is safe for the bus. -/
theorem performAction_busSafe (q : Run) (a : Action) (hs : q.st.out.oe = .low → q.st.busDir = .input)
    (ht : (performAction q a).st.out.oe = .low → (performAction q a).st.busDir = .input) :
    BusSafe q.st (performAction q a).st := by
  have hends {x y : Prop} [Decidable x] [Decidable y] (hx : x) (hy : y) : (decide x && decide y) = true := by
    simp [hx, hy]
  by_cases hb : ∃ d, a = .bdir d
  · obtain ⟨d, rfl⟩ := hb
    exact ⟨[.bdir d], rfl, hends hs ht, rfl⟩
  · by_cases ho : ∃ v, a = .drv .oe v
    · obtain ⟨v, rfl⟩ := ho
      exact ⟨[.drv .oe v], rfl, hends hs ht, rfl⟩
    · simp only [not_exists] at hb ho
      obtain ⟨es, htrace, hstill⟩ := performAction_still hb ho q
      have hoe : (performAction q a).st.out.oe = latchAfter .oe q.st.out.oe a := performAction_latch .oe q a
      refine busSafe_of_still hs htrace hstill (performAction_busDir q a hb) (hoe.trans ?_)
      cases a with
      | drv l v => exact if_neg fun (hl : Line.oe = l) => ho v (hl ▸ rfl)
      | _ => rfl

/-- A list that shares the bus is safe for it, whether it runs to its end or is cut off by a timeout. -/
theorem runList_busSafe (p : List Action) (s : State) (v : Byte) (h : sharesBus s.busDir s.out.oe p = true) :
    BusSafe s (runList p ⟨s, v, false⟩).st := by
  induction p generalizing s v with
  | nil => exact busSafe_of_still (es := []) (sharesBus_start h) (by simp) rfl rfl rfl
  | cons a p ih =>
    obtain ⟨-, hrest⟩ := Bool.and_eq_true_iff.mp h
    have hbus : (performAction ⟨s, v, false⟩ a).st.busDir = busDirAfter s.busDir a := performAction_busDir_eq _ a
    have hoe : (performAction ⟨s, v, false⟩ a).st.out.oe = latchAfter .oe s.out.oe a := performAction_latch .oe _ a
    rw [← hbus, ← hoe] at hrest
    have hstep := performAction_busSafe ⟨s, v, false⟩ a (sharesBus_start h) (sharesBus_start hrest)
    rw [runList_cons, stepRun_running]
    refine hstep.trans ?_
    generalize performAction ⟨s, v, false⟩ a = r at hrest ⊢
    rcases r with ⟨t, w, _ | _⟩
    · exact ih t w hrest
    · rw [runList_timedOut]
      exact busSafe_of_still (es := []) (sharesBus_start hrest) (by simp) rfl rfl rfl

/-! ### The lists the engine builds share the bus -/

theorem exitList_parked (p : Params) (dir : PerLine Direction) :
    (exitList p dir).all keepsParked = true :=
  all_exitList keepsParked (fun _ _ => rfl) (fun _ => rfl) rfl p dir

/-- The exit list parks the bus before it drives OE. -/
theorem exitList_sharesBus (p : Params) (dir : PerLine Direction) {d : Direction} {oe : Level}
    (hs : oe = .low → d = .input) : sharesBus d oe (exitList p dir) = true := by
  obtain ⟨rest, hlist⟩ : ∃ rest, exitList p dir = .drv .rst (rstOffLevel p) :: .bdir .input :: rest := ⟨_, rfl⟩
  have hall := exitList_parked p dir
  rw [hlist] at hall ⊢
  have hrest := sharesBus_of_parked (p := rest) hall oe
  have hstart : decide (oe = .low → d = .input) = true := decide_eq_true hs
  exact Bool.and_eq_true_iff.mpr ⟨hstart, Bool.and_eq_true_iff.mpr ⟨hstart, hrest⟩⟩

theorem hvpp_sharesBus {i : Instr} {s : State} (hi : isHvpp i = true) (hc : firstFailing (checksOf i s) = none) :
    sharesBus .input .high (listOf i s) = true := by
  obtain ⟨xa1, xa0, b, h⟩ | ⟨f, v, h⟩ | ⟨f, h⟩ := hvpp_listOf hi hc <;> rw [h] <;> cases s.mode <;> rfl

/-- Apart from the HVPP operations, no operation the engine builds makes the bus an Output. -/
theorem listOf_parked {i : Instr} {s : State} (hi : isLineOperation i = false) (hpp : isHvpp i = false) :
    (listOf i s).all keepsParked = true := by
  have hframe (d b : Byte) : (frameList s.cfg d b).all keepsParked = true := rfl
  cases i with
  | setmode m => rfl
  | enter => simp only [listOf]; cases s.mode <;> rfl
  | exit => exact exitList_parked s.cfg s.dir
  | spXfer d b => rw [listOf, List.all_append, hframe]; rfl
  | spWrfuse sel v =>
    exact all_withFuse _ _ sel _ fun f => by simp only [spWriteList, pairFrame, List.all_append, hframe]; rfl
  | spRdfuse sel =>
    exact all_withFuse _ _ sel _ fun f => by simp only [spReadList, pairFrame, List.all_append, hframe]; rfl
  | ppSendcmd | ppLoaddata | ppWrfuse | ppRdfuse => cases hpp
  | _ => cases hi

theorem listOf_sharesBus {i : Instr} {s : State} (hi : isLineOperation i = false) (hs : LineDiscipline s)
    (hc : firstFailing (checksOf i s) = none) : sharesBus s.busDir s.out.oe (listOf i s) = true := by
  obtain ⟨-, -, -, hbus, hsession⟩ := hs
  rw [hbus]
  cases hpp : isHvpp i with
  | true =>
    obtain ⟨he, -⟩ := hvpp_keepsDiscipline hpp hc
    rw [(hsession he).1]
    exact hvpp_sharesBus hpp hc
  | false => exact sharesBus_of_parked (listOf_parked hi hpp) _

theorem abort_busSafe {s : State} (h : s.out.oe = .low → s.busDir = .input) : BusSafe s (abort s) :=
  runList_busSafe (exitList s.cfg s.dir) { s with entered := false, upc := 0#9 } 0x00#8
    (exitList_sharesBus _ _ h)

/-- Settles O36: the operation's list shares the bus, and so does the exit list of an abort wherever it starts. -/
theorem engineNeverFightsForTheBus : Obligations.EngineNeverFightsForTheBus := by
  intro i s t hi _ hs h
  suffices hsafe : BusSafe s t by
    obtain ⟨es, htrace, hsafe, -⟩ := hsafe
    rwa [eventsOf_eq htrace]
  obtain ⟨e, -, rfl⟩ | ⟨hc, r, rfl, hend⟩ := exec_cases h
  · obtain ⟨-, -, -, hbus, -⟩ := hs
    exact busSafe_of_still (es := []) (fun _ => hbus) (by simp [completed]) rfl rfl rfl
  · have hrun := runList_busSafe (listOf i s) (accept (encode i) s) 0x00#8 (listOf_sharesBus hi hs hc)
    rw [accept_encode] at hrun
    obtain ⟨-, rfl⟩ | ⟨-, rfl⟩ := hend
    · exact hrun
    · exact BusSafe.trans hrun (abort_busSafe hrun.final)

end Sys2Proof
end

section
/-! PROOFS, `43_hvsp.md`: the HVSP operations, the frames they shift, and the default table of their bytes. -/

namespace Sys2Proof

open Sys2Proof.Machine Sys2Proof.Safety

/-! ### What an observer reads off one frame (R88, R165) -/

/-- Eleven clock pulses, from a Low clock (R165 (a)). -/
theorem frameTrace_pulses_sci (p : Params) (d i : Byte) {v : List Level} (hv : v.length = 8) :
    Pulses .bs1 .low 11 (frameTrace p d i v) where
  rising rest := risingEdges_frameTrace p d i hv .low rest
  falling rest := by
    obtain ⟨_, _, _, _, _, _, _, _, rfl⟩ := length_eight hv
    simp [frameTrace, serialStream, msbFirst, bitTimesTrace, bitTimeTrace, fallingEdges]
    omega

theorem frameTrace_sdi (p : Params) (d i : Byte) {v : List Level} (hv : v.length = 8) (clk now : Level) :
    levelsAtRises .bs1 .xa1 clk now (frameTrace p d i v) = serialStream d := by
  simpa [levelsAtRises] using levelsAtRises_sdi_frameTrace p d i hv clk now []

theorem frameTrace_sii (p : Params) (d i : Byte) {v : List Level} (hv : v.length = 8) (clk now : Level) :
    levelsAtRises .bs1 .xa0 clk now (frameTrace p d i v) = serialStream i := by
  simpa [levelsAtRises] using levelsAtRises_sii_frameTrace p d i hv clk now []

theorem frameTrace_samples (p : Params) (d i : Byte) {v : List Level} (hv : v.length = 8) :
    samplesOf .rdy (frameTrace p d i v) = v := by
  simpa [samplesOf] using samplesOf_frameTrace p d i hv []

/-- A frame does not touch the bus (R165 (d)). -/
theorem frameTrace_no_bus (p : Params) (d i : Byte) {v : List Level} (hv : v.length = 8) :
    (frameTrace p d i v).any isBusEvent = false := by
  obtain ⟨_, _, _, _, _, _, _, _, rfl⟩ := length_eight hv
  rfl

/-! ### The state a frame leaves (R160) -/

/-- `s` after the frame of the pair `x` whose samples are `v`, with `pins` and `draws` what the samples leave of the
environment's script and of the free values. -/
def framed (x : FramePair) (v pins : List Level) (draws : Nat) (s : State) : State := { s with
  out := { s.out with bs1 := .low, xa0 := .low, xa1 := .low }
  resp := responseByte v
  pinIn := pins, draws := draws
  trace := s.trace ++ frameTrace s.cfg x.data x.instr v }

/-- A frame whose eight samples the script answers. -/
theorem frame_runs (x : FramePair) {v rest : List Level} {s : State} (hv : v.length = 8) (hd : s.dir.rdy = .input)
    (hp : s.pinIn = v ++ rest) : Runs (pairFrame s.cfg x) s (framed x v rest s.draws s) := by
  intro u val
  obtain ⟨_, _, _, _, _, _, _, _, rfl⟩ := length_eight hv
  exact ⟨_, _, frameList_run s.cfg x.data x.instr { s with upc := u } val _ _ _ _ _ _ _ _ rest hd hp⟩

/-- A frame, whatever the environment answers to its samples. -/
theorem exists_framed (x : FramePair) (s : State) (u : BitVec 9) (val : Byte) :
    ∃ (v pins : List Level) (draws : Nat) (u' : BitVec 9) (val' : Byte), v.length = 8 ∧
      (s.dir.rdy = .input → 8 ≤ s.pinIn.length → s.pinIn = v ++ pins) ∧
      runList (pairFrame s.cfg x) ⟨{ s with upc := u }, val, false⟩ =
        ⟨{ framed x v pins draws s with upc := u' }, val', false⟩ := by
  obtain ⟨v, pins, draws, val', hv, hscript, hrun⟩ := frameList_script s.cfg x.data x.instr { s with upc := u } val
  exact ⟨v, pins, draws, _, val', hv, hscript, hrun⟩

theorem resultFromResp_runs (s : State) : Runs [.resultFromResp] s { s with result := s.resp } :=
  fun u v => ⟨u, v, rfl⟩

/-! ### SP_XFER (R160) -/

theorem checks_spXfer {s : State} (he : s.entered = true) (hm : s.mode = .hvsp) (d i : Byte) :
    firstFailing (checksOf (.spXfer d i) s) = none := by
  simp [firstFailing_eq_none, checksOf, he, hm]

/-- Settles O39: a frame whose samples the script answers, then `RESULT <- RESP`. -/
theorem spXferShiftsOneFrame : Obligations.SpXferShiftsOneFrame := by
  intro d i s v0 v1 v2 v3 v4 v5 v6 v7 rest he hm hd hp
  have hframe := frame_runs ⟨d, i⟩ (s := accept (encode (.spXfer d i)) s) rfl hd hp
  refine ⟨rfl, ?_⟩
  rw [exec_of_runs (checks_spXfer he hm d i) (hframe.append (resultFromResp_runs _)), accept_encode]
  rfl

/-- An operation whose list ends by returning the response: what it completes with, from where the list stands then. -/
theorem exec_of_response {i : Instr} {s t : State} {p : List Action} {u : BitVec 9} {val : Byte}
    (hc : firstFailing (checksOf i s) = none) (hlist : listOf i s = p ++ [.resultFromResp])
    (hrun : runList p ⟨accept (encode i) s, 0x00#8, false⟩ = ⟨{ t with upc := u }, val, false⟩) :
    exec i s = .next (complete .ok { t with result := t.resp }) := by
  have hall : run (listOf i s) (accept (encode i) s) = ⟨{ t with result := t.resp, upc := u }, val, false⟩ := by
    rw [hlist, run, runList_append, hrun]
    rfl
  rw [exec_of_accepted hc, conduct_done hall]
  rfl

/-- `SP_XFER`, whatever the environment answers (R160). -/
theorem exec_spXfer {s : State} (he : s.entered = true) (hm : s.mode = .hvsp) (d i : Byte) :
    ∃ (v pins : List Level) (draws : Nat), v.length = 8 ∧ exec (.spXfer d i) s =
      .next (framed ⟨d, i⟩ v pins draws (completed (.spXfer d i) .ok (responseByte v) s)) := by
  obtain ⟨v, pins, draws, u, val, hv, -, hrun⟩ :=
    exists_framed ⟨d, i⟩ (accept (encode (.spXfer d i)) s) 0#9 0x00#8
  refine ⟨v, pins, draws, hv, ?_⟩
  rw [exec_of_response (checks_spXfer he hm d i) rfl hrun, accept_encode]
  rfl

/-- Settles O40: the events are those of one frame with eight samples, and `frameTrace_pulses_sci` and its companions
read off them. -/
theorem frameLengthInvariant : Obligations.FrameLengthInvariant := by
  intro d i s he hm _
  obtain ⟨v, pins, draws, hv, hexec⟩ := exec_spXfer he hm d i
  refine ⟨_, hexec, ?_⟩
  have hevents : eventsOf s (framed ⟨d, i⟩ v pins draws (completed (.spXfer d i) .ok (responseByte v) s)) =
      frameTrace s.cfg d i v := eventsOf_eq rfl
  obtain ⟨hrise, hfall⟩ := (frameTrace_pulses_sci s.cfg d i hv).edges
  rw [hevents, frameTrace_sdi _ _ _ hv, frameTrace_sii _ _ _ hv, frameTrace_samples _ _ _ hv]
  exact ⟨rfl, hrise, hfall, rfl, rfl, hv, frameTrace_no_bus _ _ _ hv, rfl, rfl, rfl, rfl, rfl⟩

/-! ### SP_RDFUSE (R162) -/

section

variable {s : State} {f : FuseSel} (he : s.entered = true) (hm : s.mode = .hvsp)
  (hf : f = .extended → s.cfg.extEn = true)

include he hm hf

theorem checks_spRdfuse : firstFailing (checksOf (.spRdfuse f.bits) s) = none := by
  simp [checksOf, notEnteredCheck_eq_none.mpr he, serialCheck_eq_none.mpr hm, selectorCheck, fuse_bits f _ hf,
    firstFailing]

theorem checks_spWrfuse (v : Byte) : firstFailing (checksOf (.spWrfuse f.bits v) s) = none :=
  checks_spRdfuse he hm hf

omit he hm in
theorem listOf_spRdfuse : listOf (.spRdfuse f.bits) s = spReadList s.cfg f := by
  simp [listOf, withFuse, fuse_bits f _ hf]

omit he hm in
theorem listOf_spWrfuse (v : Byte) : listOf (.spWrfuse f.bits v) s = spWriteList s.cfg f v := by
  simp [listOf, withFuse, fuse_bits f _ hf]

end

/-- Three frames one after another, whatever the environment answers: each leaves its events, the third all the rest.
Where the script holds 24 answers, it gave the samples. -/
theorem exists_framed_three (x y z : FramePair) (s : State) :
    ∃ (v1 v2 v3 pins : List Level) (draws : Nat) (u : BitVec 9) (val : Byte),
      v1.length = 8 ∧ v2.length = 8 ∧ v3.length = 8 ∧
      (s.dir.rdy = .input → 24 ≤ s.pinIn.length → s.pinIn = v1 ++ v2 ++ v3 ++ pins) ∧
      runList (pairFrame s.cfg x ++ pairFrame s.cfg y ++ pairFrame s.cfg z) ⟨s, 0x00#8, false⟩ =
        ⟨{ framed z v3 pins draws { s with
          trace := s.trace ++ frameTrace s.cfg x.data x.instr v1 ++ frameTrace s.cfg y.data y.instr v2 } with
          upc := u }, val, false⟩ := by
  obtain ⟨v1, pins1, draws1, u1, val1, hv1, hs1, hr1⟩ := exists_framed x s s.upc 0x00#8
  obtain ⟨v2, pins2, draws2, u2, val2, hv2, hs2, hr2⟩ := exists_framed y (framed x v1 pins1 draws1 s) u1 val1
  obtain ⟨v3, pins, draws, u, val, hv3, hs3, hr3⟩ :=
    exists_framed z (framed y v2 pins2 draws2 (framed x v1 pins1 draws1 s)) u2 val2
  refine ⟨v1, v2, v3, pins, draws, u, val, hv1, hv2, hv3, fun hd hlen => ?_, ?_⟩
  · have h1 : s.pinIn = v1 ++ pins1 := hs1 hd (by omega)
    rw [h1, List.length_append, hv1] at hlen
    have h2 : pins1 = v2 ++ pins2 := hs2 hd (show 8 ≤ pins1.length by omega)
    rw [h2, List.length_append, hv2] at hlen
    have h3 : pins2 = v3 ++ pins := hs3 hd (show 8 ≤ pins2.length by omega)
    simp [h1, h2, h3]
  · rw [runList_append, runList_append, hr1]
    exact (congrArg (runList (pairFrame s.cfg z)) hr2).trans hr3

/-- Settles O41: three frames one after another, of which the third leaves the response. -/
theorem spRdfuseReturnsTheThirdFramesResponse : Obligations.SpRdfuseReturnsTheThirdFramesResponse := by
  intro f s he hm hf
  obtain ⟨v1, v2, v3, pins, draws, u, val, hv1, hv2, hv3, hscript, hrun⟩ :=
    exists_framed_three (spRead s.cfg.spTab f).first (spRead s.cfg.spTab f).second (spRead s.cfg.spTab f).third
      (accept (encode (.spRdfuse f.bits)) s)
  have hexec := exec_of_response (checks_spRdfuse he hm hf) (listOf_spRdfuse hf) hrun
  rw [accept_encode] at hexec
  refine ⟨v1, v2, v3, pins, draws, _, hv1, hv2, hv3, hscript, hexec, rfl, ?_⟩
  rw [eventsOf_eq (s := s) ((List.append_assoc ..).trans (List.append_assoc ..)), ← List.append_assoc]
  refine ⟨?_, ?_, ?_, ?_⟩
  · simp [risingEdges_frameTrace, (frameTrace_pulses_sci _ _ _ hv3).edges, hv1, hv2]
  · simp [levelsAtRises_sdi_frameTrace, frameTrace_sdi, hv1, hv2, hv3]
  · simp [levelsAtRises_sii_frameTrace, frameTrace_sii, hv1, hv2, hv3]
  · simp [samplesOf_frameTrace, frameTrace_samples, hv1, hv2, hv3]

/-! ### SP_WRFUSE (R163) -/

/-- The state in which `SP_WRFUSE` starts its busy-wait: the script has answered the 32 samples of its four frames
with `frames`, and holds `rest` yet (R163). -/
def burningSerial (f : FuseSel) (v : Byte) (frames rest : List Level) (s : State) : State :=
  framed (spWrite s.cfg.spTab f).fourth (frames.drop 24) rest s.draws { accept (encode (.spWrfuse f.bits v)) s with
    trace := s.trace ++
      frameTrace s.cfg (spWrite s.cfg.spTab f).first.data (spWrite s.cfg.spTab f).first.instr (frames.take 8) ++
      frameTrace s.cfg v (spWrite s.cfg.spTab f).secondInstr ((frames.drop 8).take 8) ++
      frameTrace s.cfg (spWrite s.cfg.spTab f).third.data (spWrite s.cfg.spTab f).third.instr
        ((frames.drop 16).take 8) }

/-- The four frames of `SP_WRFUSE`: its list up to the busy-wait (R163). -/
def burningSerialList (p : Params) (f : FuseSel) (v : Byte) : List Action :=
  pairFrame p (spWrite p.spTab f).first ++ pairFrame p ⟨v, (spWrite p.spTab f).secondInstr⟩ ++
    pairFrame p (spWrite p.spTab f).third ++ pairFrame p (spWrite p.spTab f).fourth

theorem spWriteList_eq (p : Params) (f : FuseSel) (v : Byte) :
    spWriteList p f v = burningSerialList p f v ++ [.poll .rdy] := rfl

/-- The answers from the k-th on are eight for one frame and those from the (k + 8)-th on. -/
theorem drop_append_eq_take_eight (l rest : List Level) (k : Nat) :
    l.drop k ++ rest = (l.drop k).take 8 ++ (l.drop (k + 8) ++ rest) := by
  rw [← List.append_assoc, ← List.drop_drop, List.take_append_drop]

section

variable {s : State} {f : FuseSel} {frames rest : List Level} (hd : s.dir.rdy = .input)
  (hlen : frames.length = 32) (hp : s.pinIn = frames ++ rest)

include hd hlen hp

theorem burningSerial_runs (v : Byte) : Runs (burningSerialList s.cfg f v) (accept (encode (.spWrfuse f.bits v)) s)
    (burningSerial f v frames rest s) := by
  have hsplit := drop_append_eq_take_eight frames rest
  have h1 := frame_runs (spWrite s.cfg.spTab f).first (v := frames.take 8)
    (s := accept (encode (.spWrfuse f.bits v)) s) (by simp [hlen]) hd (hp.trans (hsplit 0))
  have h2 := h1.append (frame_runs ⟨v, (spWrite s.cfg.spTab f).secondInstr⟩ (by simp [hlen]) hd (hsplit 8))
  have h3 := h2.append (frame_runs (spWrite s.cfg.spTab f).third (by simp [hlen]) hd (hsplit 16))
  exact h3.append (frame_runs (spWrite s.cfg.spTab f).fourth (v := frames.drop 24) (by simp [hlen]) hd rfl)

/-- `SP_WRFUSE` whose frames the script answers, whatever the busy-wait meets then (R163, R187). -/
theorem exec_spWrfuse (he : s.entered = true) (hm : s.mode = .hvsp) (hf : f = .extended → s.cfg.extEn = true)
    (v : Byte) : exec (.spWrfuse f.bits v) s = .next (if (poll .rdy (burningSerial f v frames rest s)).2
      then complete .ok (poll .rdy (burningSerial f v frames rest s)).1
      else abort (poll .rdy (burningSerial f v frames rest s)).1) := by
  have hruns := burningSerial_runs (f := f) hd hlen hp v
  rw [exec_of_accepted (checks_spWrfuse he hm hf v), listOf_spWrfuse hf, spWriteList_eq]
  cases hpoll : (poll .rdy (burningSerial f v frames rest s)).2 with
  | true => rw [(hruns.append (poll_runs hpoll)).conduct, if_pos rfl]
  | false => rw [conduct_of_poll_timeout hruns hpoll, if_neg Bool.false_ne_true]

end

/-- Settles O42: after the four frames the busy-wait ends with its High sample, the list's last entry. -/
theorem spWrfuseBurnsWhenTheTargetGetsReady : Obligations.SpWrfuseBurnsWhenTheTargetGetsReady := by
  intro f v s frames m rest he hm hf hd hlen hp hlt
  rw [List.append_assoc] at hp
  have hpoll := pollLoop_ready .rdy m s.cfg.pollLimitPred
    { burningSerial f v frames (List.replicate m .low ++ .high :: rest) s with pcnt := 0 } rest hd rfl
    (Nat.le_of_lt_succ hlt)
  have hready : poll .rdy (burningSerial f v frames (List.replicate m .low ++ .high :: rest) s) = _ := hpoll
  rw [exec_spWrfuse hd hlen hp he hm hf, hready, if_pos rfl, burningSerial, accept_encode]
  simp [framed, completed, complete, pollReadyTrace]

/-- Settles O43: after the four frames the busy-wait runs out, and the abort performs the exit list. -/
theorem spWrfuseTimeoutRunsTheExitList : Obligations.SpWrfuseTimeoutRunsTheExitList := by
  intro f v s frames rest he hm hf hd hlen hp
  rw [List.append_assoc] at hp
  have hpoll := pollLoop_timeout .rdy s.cfg.pollLimitPred
    { burningSerial f v frames (List.replicate (pollLimit s.cfg) .low ++ rest) s with pcnt := 0 } rest hd rfl
  have hlate : poll .rdy (burningSerial f v frames (List.replicate (pollLimit s.cfg) .low ++ rest) s) = _ := hpoll
  rw [exec_spWrfuse hd hlen hp he hm hf, hlate, if_neg Bool.false_ne_true, abort_eq, burningSerial, accept_encode]
  simp [framed, completed, pollTimeoutTrace, pollLimit]

/-! ### The default table (R161) -/

/-- Settles O44: the constants of each selector's rows, read off the table. -/
theorem defaultSptabIsAsStated : Obligations.DefaultSptabIsAsStated := by
  refine ⟨fun f => ?_, rfl, rfl, rfl, rfl⟩
  cases f <;> exact ⟨rfl, rfl, rfl, rfl, rfl, rfl, rfl⟩

end Sys2Proof
end

section
/-! PROOFS, `60_exceptions.md`: the completion codes, the checks before an operation, the count of the busy-wait, and
the operations that no session register decides. -/

namespace Sys2Proof

open Sys2Proof.Machine Sys2Proof.Safety

/-! ### Refusal, completion and timeout (R181, R182, R183, R187) -/

/-- Settles O45: the checks are the table of R182, and the first that fails refuses the operation. -/
theorem firstFailingCheckRefusesWithoutEffect : Obligations.FirstFailingCheckRefusesWithoutEffect := by
  intro i s e hw hr
  exact exec_of_refused ((checks_eq i s hw).trans hr)

/-- Settles O46: past its checks an operation completes with code 0 or is aborted, and only a busy-wait aborts. -/
theorem unrefusedOperationsCompleteOrTimeOut : Obligations.UnrefusedOperationsCompleteOrTimeOut := by
  intro i s t hw hr h
  obtain ⟨e, hc, -⟩ | ⟨-, r, rfl, ⟨-, rfl⟩ | ⟨ht, rfl⟩⟩ := exec_cases h
  · rw [checks_eq i s hw, hr] at hc
    cases hc
  · exact .inl rfl
  · exact .inr ⟨abort_err _, hasPoll_of_timedOut ht⟩

/-! ### `IllegalCommand` (R184) -/

theorem lifecycleRefusal_ne_illegalCommand (i : Instr) (s : State) :
    lifecycleRefusal i s ≠ some .illegalCommand := by
  cases i <;> simp [lifecycleRefusal]

theorem modeRefusal_ne_illegalCommand (i : Instr) (s : State) : modeRefusal i s ≠ some .illegalCommand := by
  cases i <;> simp [modeRefusal]

theorem selectorRefusal_ne_illegalCommand (i : Instr) (s : State) :
    selectorRefusal i s ≠ some .illegalCommand := by
  cases i <;> simp [selectorRefusal]

/-- Code 2 stands in no column of R182. -/
theorem refusalOf_ne_illegalCommand (i : Instr) (s : State) : refusalOf i s ≠ some .illegalCommand := by
  simp [refusalOf, Option.or_eq_some_iff, lifecycleRefusal_ne_illegalCommand, modeRefusal_ne_illegalCommand,
    selectorRefusal_ne_illegalCommand]

/-- Settles O8: a ready engine takes an illegal word and refuses it; a well-formed instruction ends with the code of a
check, of which none is 2, or with code 0 or 1. -/
theorem illegalCommandIsForIllegalWordsOnly : Obligations.IllegalCommandIsForIllegalWordsOnly := by
  refine ⟨fun s w rest hb hq hd => ?_, fun i s t hw h => ?_⟩
  · rw [step_command hb hq, runWord_illegal hd]
    rfl
  · cases hr : refusalOf i s with
    | some e =>
      cases h.symm.trans (firstFailingCheckRefusesWithoutEffect i s e hw hr)
      rintro rfl
      exact refusalOf_ne_illegalCommand i s hr
    | none =>
      obtain he | ⟨he, -⟩ := unrefusedOperationsCompleteOrTimeOut i s t hw hr h <;> simp [he]

/-! ### `PCNT` (R186, R72 (d)) -/

/-- `PCNT` is within `POLL_LIMIT`. -/
def PcntBounded (s : State) : Prop := s.pcnt ≤ pollLimit s.cfg

/-- A busy-wait leaves a count within the limit; no other entry of a list writes `PCNT`. -/
theorem performAction_pcntBounded (q : Run) (a : Action) (h : PcntBounded q.st) :
    PcntBounded (performAction q a).st := by
  by_cases ha : ∃ l, a = .poll l
  · obtain ⟨l, rfl⟩ := ha
    have hpoll := poll_pcnt_le l q.st
    unfold PcntBounded
    rw [performAction_cfg]
    simp only [performAction]
    split <;> exact hpoll
  · unfold PcntBounded
    rw [performAction_cfg, performAction_pcnt q a fun l hl => ha ⟨l, hl⟩]
    exact h

theorem run_pcntBounded (p : List Action) {s : State} (h : PcntBounded s) : PcntBounded (run p s).st :=
  runList_keeps PcntBounded p _ (fun a _ q => performAction_pcntBounded q a) h

theorem run_listOf_pcnt {i : Instr} (h : hasPoll i = false) (s u : State) :
    (run (listOf i s) u).st.pcnt = u.pcnt :=
  runList_field (·.pcnt) _ _ fun a ha q => performAction_pcnt q a fun l hl => by
    simpa [hl, allowed, h] using listOf_allowed i s a ha

@[simp] theorem abort_pcnt (s : State) : (abort s).pcnt = s.pcnt := by rw [abort_eq]

@[simp] theorem abort_cfg (s : State) : (abort s).cfg = s.cfg := by rw [abort_eq]

theorem abort_pcntBounded {s : State} (h : PcntBounded s) : PcntBounded (abort s) := by
  simpa [PcntBounded] using h

/-- Settles O48: a list keeps the bound, and without `POLL` the count; a refusal and the abort write neither. -/
theorem pcntStaysWithinPollLimit : Obligations.PcntStaysWithinPollLimit := by
  intro i s t h
  obtain ⟨e, -, rfl⟩ | ⟨-, r, rfl, ⟨-, rfl⟩ | ⟨-, rfl⟩⟩ := exec_cases h
  · exact ⟨id, fun _ => rfl⟩
  · exact ⟨fun hs => run_pcntBounded _ hs, fun hi => run_listOf_pcnt hi s _⟩
  · exact ⟨fun hs => abort_pcntBounded (run_pcntBounded _ hs),
      fun hi => (abort_pcnt _).trans (run_listOf_pcnt hi s _)⟩

/-! ### Lists that no session register decides (R192) -/

/-- `s` with other values in the three session registers. -/
def inSession (e : Bool) (m : Mode) (r : Byte) (s : State) : State := { s with entered := e, mode := m, resp := r }

/-- A run with other values in the session registers. -/
def runInSession (e : Bool) (m : Mode) (r : Byte) (q : Run) : Run := { q with st := inSession e m r q.st }

/-- The entries of a list that neither read nor write a session register; a busy-wait does not either, but the nine line
operations have none. -/
def sessionBlind : Action → Bool
  | .poll _ => false
  | .resultFromSample => true
  | a => a.isPrimitive

section

variable (e : Bool) (m : Mode) (r : Byte)

theorem smpLine_inSession (l : Line) (s : State) : smpLine l (inSession e m r s) = inSession e m r (smpLine l s) := by
  simp only [smpLine, useLevel, inSession]
  split <;> rfl

theorem busSample_inSession (s : State) : busSample (inSession e m r s) = inSession e m r (busSample s) := by
  simp only [busSample, useByte, inSession]
  split <;> rfl

theorem performAction_inSession {a : Action} (ha : sessionBlind a = true) (q : Run) :
    performAction (runInSession e m r q) a = runInSession e m r (performAction q a) := by
  cases a with
  | smp l => simp only [performAction, runInSession, smpLine_inSession]; rfl
  | bsmp => simp only [performAction, runInSession, busSample_inSession]; rfl
  | dir | drv | bdir | bdrv | waitUs | waitMs | resultFromSample => rfl
  | poll | clearResp | respBit | setMode | setEntered | resultFromResp => cases ha

theorem runList_inSession {p : List Action} (hp : ∀ a ∈ p, sessionBlind a = true) (q : Run) :
    runList p (runInSession e m r q) = runInSession e m r (runList p q) := by
  induction p generalizing q with
  | nil => rfl
  | cons a p ih =>
    obtain ⟨ha, hp⟩ := List.forall_mem_cons.mp hp
    have hstep : stepRun (runInSession e m r q) a = runInSession e m r (stepRun q a) := by
      unfold stepRun
      rw [performAction_inSession e m r ha, apply_ite (runInSession e m r)]
      rfl
    rw [runList_cons, runList_cons, hstep, ih hp]

end

/-! ### The nine line operations (40_line_primitives.md) -/

section

variable {i : Instr} (hi : isLineOperation i = true)

include hi

/-- A line operation has no check and no busy-wait, and its list is that of its operands alone. -/
theorem lineOperation_plan (s u : State) : checksOf i s = [] ∧ listOf i s = listOf i u ∧
    (listOf i s).all sessionBlind = true ∧ hasPoll i = false := by
  cases i with
  | setdir | wrline | rdline | strobe | delayms | delayus | setbusdir | wrbus | rdbus => exact ⟨rfl, rfl, rfl, rfl⟩
  | setmode | enter | exit | ppSendcmd | ppLoaddata | ppWrfuse | ppRdfuse | spXfer | spWrfuse | spRdfuse => cases hi

theorem exec_lineOperation (s : State) :
    exec i s = .next (complete .ok (run (listOf i s) (accept (encode i) s)).st) := by
  obtain ⟨hchecks, -, -, hpoll⟩ := lineOperation_plan hi s s
  rw [exec_of_accepted (by rw [hchecks]; rfl), conduct, run_no_timeout hpoll, if_neg Bool.false_ne_true]

/-- With other values in the session registers a line operation does the same and leaves those values. -/
theorem exec_lineOperation_inSession {s t : State} (h : exec i s = .next t) (e : Bool) (m : Mode) (r : Byte) :
    exec i (inSession e m r s) = .next (inSession e m r t) := by
  obtain ⟨-, hlist, hblind, -⟩ := lineOperation_plan hi s (inSession e m r s)
  have hrun := runList_inSession e m r (List.all_eq_true.mp hblind) ⟨accept (encode i) s, 0x00#8, false⟩
  rw [exec_lineOperation hi, Host.Outcome.next.injEq] at h
  rw [exec_lineOperation hi, ← hlist, ← h]
  exact congrArg (fun q : Run => (Host.Outcome.next (complete .ok q.st) : Outcome)) hrun

end

/-- Settles O53: a line operation has no check, and its list is blind to the session registers; so it also keeps
them: started with the values they have, it leaves those values. -/
theorem lineOperationsRunInEveryState : Obligations.LineOperationsRunInEveryState := by
  intro i s hi
  obtain ⟨t, h, hok⟩ : ∃ t, exec i s = .next t ∧ t.err = .ok := ⟨_, exec_lineOperation hi s, rfl⟩
  have hother := exec_lineOperation_inSession hi h
  have hkept : t = inSession s.entered s.mode s.resp t :=
    Host.Outcome.next.inj (h.symm.trans (hother s.entered s.mode s.resp))
  exact ⟨t, h, hok, (congrArg State.entered hkept :), (congrArg State.mode hkept :), (congrArg State.resp hkept :),
    hother⟩

/-! ### No state stops the machine (R180, R183, R189) -/

theorem exists_runWord_next (w : CmdWord) (s : State) : ∃ t, runWord w s = .next t := by
  cases hd : decode w with
  | none => exact ⟨_, runWord_illegal hd s⟩
  | some i =>
    obtain ⟨t, -, hx, -⟩ := everyOperationCompletesWithOneResponse i s
    exact ⟨t, (runWord_legal hd s).trans hx⟩

theorem exists_runWordThenReset_next (w : CmdWord) (k : Nat) (s : State) : ∃ t, runWordThenReset w k s = .next t := by
  obtain ⟨done, hd⟩ := exists_runWord_next w s
  exact ⟨abandon k s done, by rw [runWordThenReset, hd]⟩

/-- Settles O10, by the next input: the engine waits, is reset, or finishes or abandons what the word asks for. -/
theorem everyStepAnswersANextState : Obligations.EveryStepAnswersANextState := by
  intro s
  rcases hq : s.hostIn with _ | ⟨⟨w⟩ | _ | ⟨w, k⟩, rest⟩
  · exact ⟨s, step_noInput hq⟩
  · cases hb : s.busy with
    | true => exact ⟨s, step_command_busy hb hq⟩
    | false => exact step_command hb hq ▸ exists_runWord_next w _
  · exact ⟨_, step_reset hq⟩
  · cases hb : s.busy with
    | true => exact ⟨s, step_commandThenReset_busy hb hq⟩
    | false => exact step_commandThenReset hb hq ▸ exists_runWordThenReset_next w k _

/-! ### The numbers of the codes (R180) -/

/-- Settles O47: the numbers are read off, code by code. -/
theorem errorCodesAreNumberedAsStated : Obligations.ErrorCodesAreNumberedAsStated := by
  refine ⟨rfl, fun e => ?_⟩
  cases e <;> decide

end Sys2Proof
end

section
/-! PROOFS, `70_reset_and_hazards.md`: the reset input, a reset during an operation, and the directions of the lines
when an operation drives or samples them. -/

namespace Sys2Proof

open Sys2Proof.Machine Sys2Proof.Safety

/-! ### Reset (R210, R211, R212) -/

/-- Settles O12: a step resets the engine whatever it was doing, and the reset state has idle lines. -/
theorem resetInputGivesTheResetState : Obligations.ResetInputGivesTheResetState :=
  fun s _ hq => ⟨step_reset hq, idleLines_ofParams s.cfg⟩

theorem runWordThenReset_of_next {w : CmdWord} {s done : State} (h : runWord w s = .next done) (k : Nat) :
    runWordThenReset w k s = .next (abandon k s done) := by
  rw [runWordThenReset, h]

/-- Settles O13: the step abandons the operation, which drops from the environment's scripts the answers taken. -/
theorem resetDuringAnOperationAbandonsIt : Obligations.ResetDuringAnOperationAbandonsIt := by
  intro s done w k rest i hb hq hd hx
  have hstep : step s = .next (abandon k { s with hostIn := rest } done) := by
    rw [step_commandThenReset hb hq, runWordThenReset_of_next ((runWord_legal hd _).trans hx)]
  exact ⟨_, _, hstep, List.drop_suffix _ _, List.drop_suffix _ _⟩

/-! ### Directions along a trace (R222) -/

/-- `DIR` after an event. -/
def dirAfterEvent (dir : PerLine Direction) : Event → PerLine Direction
  | .dir l d => setCell dir l d
  | _ => dir

theorem drivesOutputsOnly_append (dir : PerLine Direction) (xs ys : List Event) :
    drivesOutputsOnly dir (xs ++ ys) =
      (drivesOutputsOnly dir xs && drivesOutputsOnly (xs.foldl dirAfterEvent dir) ys) := by
  induction xs generalizing dir with
  | nil => rfl
  | cons x xs ih => cases x <;> simp [drivesOutputsOnly, dirAfterEvent, ih, Bool.and_assoc]

theorem samplesInputsOnly_append (dir : PerLine Direction) (xs ys : List Event) :
    samplesInputsOnly dir (xs ++ ys) =
      (samplesInputsOnly dir xs && samplesInputsOnly (xs.foldl dirAfterEvent dir) ys) := by
  induction xs generalizing dir with
  | nil => rfl
  | cons x xs ih => cases x <;> simp [samplesInputsOnly, dirAfterEvent, ih, Bool.and_assoc]

/-- The events from `s` to `t` drive Outputs and sample Inputs only, and they account for the directions of `t`. -/
def AccessSafe (s t : State) : Prop :=
  ∃ es, t.trace = s.trace ++ es ∧ drivesOutputsOnly s.dir es = true ∧ samplesInputsOnly s.dir es = true ∧
    es.foldl dirAfterEvent s.dir = t.dir

theorem AccessSafe.of_silent {s t : State} (htrace : t.trace = s.trace) (hdir : t.dir = s.dir) : AccessSafe s t :=
  ⟨[], by simp [htrace], rfl, rfl, hdir.symm⟩

theorem AccessSafe.trans {s t r : State} (h : AccessSafe s t) (h' : AccessSafe t r) : AccessSafe s r := by
  obtain ⟨es, ht, hdrives, hsamples, hafter⟩ := h
  obtain ⟨es', hr, hdrives', hsamples', hafter'⟩ := h'
  refine ⟨es ++ es', by rw [hr, ht, List.append_assoc], ?_, ?_, by rw [List.foldl_append, hafter, hafter']⟩
  · rw [drivesOutputsOnly_append, hafter, hdrives, hdrives']; rfl
  · rw [samplesInputsOnly_append, hafter, hsamples, hsamples']; rfl

/-- The samples and waits of a busy-wait on an Input line. -/
theorem pollEvents_access {dir : PerLine Direction} {l : Line} (hl : getCell dir l = .input) {es : List Event}
    (h : es.all (isPollEvent l) = true) :
    drivesOutputsOnly dir es = true ∧ samplesInputsOnly dir es = true ∧ es.foldl dirAfterEvent dir = dir := by
  induction es with
  | nil => exact ⟨rfl, rfl, rfl⟩
  | cons e es ih =>
    obtain ⟨he, hes⟩ := Bool.and_eq_true_iff.mp h
    obtain ⟨hdrives, hsamples, hafter⟩ := ih hes
    cases e with
    | smp m v =>
      obtain rfl : m = l := of_decide_eq_true he
      exact ⟨hdrives, Bool.and_eq_true_iff.mpr ⟨decide_eq_true hl, hsamples⟩, hafter⟩
    | waitUs n => exact ⟨hdrives, hsamples, hafter⟩
    | _ => cases he

/-! ### Directions along a list -/

/-- An entry drives an Output line or samples an Input line, if it does either. -/
def accessOk (dir : PerLine Direction) : Action → Bool
  | .drv l _ => decide (getCell dir l = .output)
  | .smp l => decide (getCell dir l = .input)
  | .poll l => decide (getCell dir l = .input)
  | _ => true

/-- `DIR` after an entry. -/
def dirAfter (dir : PerLine Direction) : Action → PerLine Direction
  | .dir l d => setCell dir l d
  | _ => dir

/-- Every entry of the list finds the line it drives an Output, and the line it samples an Input. -/
def respectsDirections : PerLine Direction → List Action → Bool
  | _, [] => true
  | dir, a :: p => accessOk dir a && respectsDirections (dirAfter dir a) p

theorem performAction_dir_eq (q : Run) (a : Action) : (performAction q a).st.dir = dirAfter q.st.dir a := by
  cases a with
  | dir l d => rfl
  | _ => exact performAction_dir q _ (by simp)

/-- An entry whose access is in order is safe; a busy-wait's samples are all of its own line. -/
theorem performAction_accessSafe {q : Run} {a : Action} (h : accessOk q.st.dir a = true) :
    AccessSafe q.st (performAction q a).st := by
  cases a with
  | poll l =>
    obtain ⟨es, htrace, hall⟩ := poll_trace l q.st
    obtain ⟨hdrives, hsamples, hafter⟩ := pollEvents_access (of_decide_eq_true h) hall
    exact ⟨es, by simp only [performAction]; split <;> exact htrace, hdrives, hsamples,
      hafter.trans (performAction_dir_eq q (.poll l)).symm⟩
  | drv l v => exact ⟨[.drv l v], rfl, Bool.and_eq_true_iff.mpr ⟨h, rfl⟩, rfl, rfl⟩
  | smp l =>
    exact ⟨[.smp l (sampledLevel l q.st)], rfl, rfl, Bool.and_eq_true_iff.mpr ⟨h, rfl⟩,
      (performAction_dir_eq q (.smp l)).symm⟩
  | bsmp => exact ⟨[.bsmp (sampledByte q.st)], rfl, rfl, rfl, (performAction_dir_eq q .bsmp).symm⟩
  | dir | bdir | bdrv | waitUs | waitMs => exact ⟨[_], rfl, rfl, rfl, rfl⟩
  | _ => exact .of_silent rfl rfl

/-- A list that respects the directions is safe, whether it runs to its end or is cut off by a timeout. -/
theorem runList_accessSafe {p : List Action} {s : State} (v : Byte) (h : respectsDirections s.dir p = true) :
    AccessSafe s (runList p ⟨s, v, false⟩).st := by
  induction p generalizing s v with
  | nil => exact .of_silent rfl rfl
  | cons a p ih =>
    obtain ⟨ha, hrest⟩ := Bool.and_eq_true_iff.mp h
    rw [← performAction_dir_eq ⟨s, v, false⟩ a] at hrest
    rw [runList_cons, stepRun_running]
    refine (performAction_accessSafe (q := ⟨s, v, false⟩) ha).trans ?_
    generalize performAction ⟨s, v, false⟩ a = r at hrest ⊢
    rcases r with ⟨t, w, _ | _⟩
    · exact ih w hrest
    · rw [runList_timedOut]
      exact .of_silent rfl rfl

/-! ### The lists the engine builds respect the directions -/

/-- The exit list's entries for lines whose directions still are what they were at its start, then VCC. -/
theorem releaseLines_respectDirections {dir₀ dir : PerLine Direction} {ls : List Line} (hnodup : ls.Nodup)
    (hsame : ∀ l ∈ ls, getCell dir₀ l = getCell dir l) (hvcc : getCell dir .vcc = .output) (hmem : .vcc ∉ ls)
    (v : Level) : respectsDirections dir (ls.flatMap (releaseLine dir₀) ++ [.drv .vcc v]) = true := by
  induction ls generalizing dir with
  | nil => simp [respectsDirections, accessOk, hvcc]
  | cons l ls ih =>
    obtain ⟨hl, hnodup⟩ := List.nodup_cons.mp hnodup
    obtain ⟨hne, hmem⟩ := not_or.mp (List.mem_cons.not.mp hmem)
    obtain ⟨hhead, hsame⟩ := List.forall_mem_cons.mp hsame
    rw [List.flatMap_cons]
    cases hd : getCell dir₀ l with
    | input => simpa [releaseLine, hd] using ih hnodup hsame hvcc hmem
    | output =>
      have hrest := ih (dir := setCell dir l .input) hnodup
        (fun m hm => by rw [hsame m hm, getCell_setCell_ne _ _ _ _ (ne_of_mem_of_not_mem hm hl)])
        (by rw [getCell_setCell_ne _ _ _ _ hne, hvcc]) hmem
      simpa [releaseLine, hd, respectsDirections, accessOk, dirAfter, ← hhead] using hrest

/-- The exit list drives RST, VCC, and the lines it finds Output (R133). -/
theorem exitList_respectsDirections {dir : PerLine Direction} (hvcc : dir.vcc = .output) (hrst : dir.rst = .output)
    (p : Params) : respectsDirections dir (exitList p dir) = true := by
  have hlines := releaseLines_respectDirections (ls := exitLines) (by decide) (fun _ _ => rfl) hvcc (by decide)
    (vccOffLevel p)
  have hrstOk : accessOk dir (.drv .rst (rstOffLevel p)) = true := decide_eq_true hrst
  exact Bool.and_eq_true_iff.mpr ⟨hrstOk, hlines⟩

/-- `ENTER` sets each line's direction before it drives the line (R131, R132). -/
theorem enterList_respectsDirections {dir : PerLine Direction} (hvcc : dir.vcc = .output) (hrst : dir.rst = .output)
    (m : Mode) (p : Params) : respectsDirections dir (enterList m p ++ [.setEntered true]) = true := by
  cases m <;>
    simp [enterList, enterParallelList, enterSerialList, respectsDirections, accessOk, dirAfter, setCell, getCell,
      hvcc, hrst]

/-- An entry that samples, if it does, the line RDY, the Input line of every session. -/
def samplesRdyOnly : Action → Bool
  | .smp l => decide (l = .rdy)
  | .poll l => decide (l = .rdy)
  | _ => true

theorem listOf_samplesRdyOnly {i : Instr} {s : State} (hi : isLineOperation i = false)
    (hsess : isSessionOperation i = false) : (listOf i s).all samplesRdyOnly = true := by
  have hframe (d b : Byte) : (frameList s.cfg d b).all samplesRdyOnly = true := rfl
  cases i with
  | ppSendcmd | ppLoaddata => simp only [listOf]; cases s.mode <;> rfl
  | ppWrfuse sel | ppRdfuse sel => exact all_withFuse _ _ sel _ fun f => by cases s.mode <;> rfl
  | spXfer d b => rw [listOf, List.all_append, hframe]; rfl
  | spWrfuse sel v =>
    exact all_withFuse _ _ sel _ fun f => by simp only [spWriteList, pairFrame, List.all_append, hframe]; rfl
  | spRdfuse sel =>
    exact all_withFuse _ _ sel _ fun f => by simp only [spReadList, pairFrame, List.all_append, hframe]; rfl
  | setmode | enter | exit => cases hsess
  | _ => cases hi

/-- Where RDY is Input, a list that changes no direction, drives Outputs and samples RDY only (R146, R165). -/
theorem respectsDirections_of_drivesWithin {dir : PerLine Direction} {ls : List Line} {p : List Action}
    (hls : ∀ l ∈ ls, getCell dir l = .output) (hrdy : dir.rdy = .input) (hdrives : p.all (drivesWithin ls) = true)
    (hsamples : p.all samplesRdyOnly = true) : respectsDirections dir p = true := by
  induction p with
  | nil => rfl
  | cons a p ih =>
    obtain ⟨had, hpd⟩ := Bool.and_eq_true_iff.mp hdrives
    obtain ⟨has, hps⟩ := Bool.and_eq_true_iff.mp hsamples
    have hrest := ih hpd hps
    cases a with
    | dir l d => cases had
    | drv l v => exact Bool.and_eq_true_iff.mpr ⟨decide_eq_true (hls l (of_decide_eq_true had)), hrest⟩
    | smp l | poll l =>
      obtain rfl : l = .rdy := of_decide_eq_true has
      exact Bool.and_eq_true_iff.mpr ⟨decide_eq_true hrdy, hrest⟩
    | _ => exact hrest

theorem movesLines_of_not_lineOperation {i : Instr} (h : isLineOperation i = false) : movesLines i = false := by
  cases i with
  | setdir | wrline | strobe | setbusdir | wrbus => cases h
  | _ => rfl

theorem listOf_respectsDirections {i : Instr} {s : State} (hi : isLineOperation i = false) (hs : LineDiscipline s)
    (hc : firstFailing (checksOf i s) = none) : respectsDirections s.dir (listOf i s) = true := by
  have ⟨⟨hvcc, hrst, _⟩, hrdy, _⟩ := hs
  cases hsess : isSessionOperation i with
  | true =>
    cases i with
    | setmode m => rfl
    | enter => exact enterList_respectsDirections hvcc hrst s.mode s.cfg
    | exit => exact exitList_respectsDirections hvcc hrst s.cfg
    | _ => cases hsess
  | false =>
    obtain ⟨ls, hls, hk⟩ := exists_drivenLines hs (movesLines_of_not_lineOperation hi) hsess hc
    obtain ⟨hdrives, -⟩ := keepsDiscipline_iff.mp hk
    exact respectsDirections_of_drivesWithin hls hrdy hdrives (listOf_samplesRdyOnly hi hsess)

theorem abort_accessSafe {s : State} (hvcc : s.dir.vcc = .output) (hrst : s.dir.rst = .output) :
    AccessSafe s (abort s) :=
  runList_accessSafe (s := { s with entered := false, upc := 0#9 }) 0x00#8
    (exitList_respectsDirections hvcc hrst s.cfg)

/-- Settles O54: the operation's list respects the directions; where a busy-wait cut it off, the exit list finds VCC
and RST the Outputs they were at its start. -/
theorem engineSetsDirectionBeforeAccess : Obligations.EngineSetsDirectionBeforeAccess := by
  intro i s t hi _ hs h
  suffices hsafe : AccessSafe s t by
    obtain ⟨es, htrace, hdrives, hsamples, -⟩ := hsafe
    rw [eventsOf_eq htrace]
    exact ⟨hdrives, hsamples⟩
  obtain ⟨e, -, rfl⟩ | ⟨hc, r, hr, hend⟩ := exec_cases h
  · exact .of_silent rfl rfl
  rw [← accept_encode] at hr
  subst hr
  have hrun := runList_accessSafe (s := accept (encode i) s) 0x00#8 (listOf_respectsDirections hi hs hc)
  obtain ⟨-, rfl⟩ | ⟨hlate, rfl⟩ := hend
  · exact hrun
  · obtain ⟨hmoves, hsess⟩ := classes_of_hasPoll (hasPoll_of_timedOut hlate)
    obtain ⟨ls, hls, hk⟩ := exists_drivenLines hs hmoves hsess hc
    obtain ⟨-, hvcc, hrst, -⟩ := run_keeps_exitProviso (s := accept (encode i) s) hk hls hs.1
    exact AccessSafe.trans hrun (abort_accessSafe hvcc hrst)

end Sys2Proof
end
